-- ==== Sys2Proof/Word.lean ====
section
/-! DEFINITION. Word.lean: the widths of the block's values, its ports, and the plain types of an operation's
outcome. Every value is an unsigned bit vector of the width stated (00_scope.md R5). -/

namespace Sys2Proof

/-- One byte lane of a frame, and the checksum (`BYTE_WIDTH`, `CHECKSUM_WIDTH`, 00_scope.md R4). -/
abbrev Byte := BitVec 8

/-- A frame as a port carries it, lane 0 in bits 31:24 (`FRAME_WIDTH`, 00_scope.md R4, R6). -/
abbrev Frame := BitVec 32

/-- The kind selector on `enc_ksel` (`KSEL_WIDTH`, 00_scope.md R4). -/
abbrev Ksel := BitVec 2

/-- The raw magnitude (`MAG_WIDTH`, 00_scope.md R4). -/
abbrev Mag := BitVec 16

/-- The code on `enc_status` and `dec_status` (`STATUS_WIDTH`, 00_scope.md R4). -/
abbrev StatusCode := BitVec 2

/-- The input ports, one for each unit: `enc_ksel`, `chk_frame`, `dec_frame` (10_state.md R17). The port driven
selects the unit (30_encoding.md R40). -/
inductive Port where
  | enc
  | chk
  | dec
  deriving DecidableEq, Repr

/-- One drive of an input port by the caller: the port, and the bytes put on it. A frame's four bytes stand in lane
order (20_memory.md R19); the selector stands in one byte, in its bits 1:0 (log 3). -/
structure Drive where
  port : Port
  bytes : List Byte
  deriving DecidableEq, Repr

/-- Why bytes cannot be driven on a port (20_memory.md R23, 30_encoding.md R38; log 3). The decoder answers with one
of these. -/
inductive Reject where
  /-- The drive of `enc_ksel` does not hold one byte. -/
  | kselBytes (n : Nat)
  /-- The byte for `enc_ksel` has a bit set above the two the port has. -/
  | kselRange (b : Byte)
  /-- The drive of a frame port does not hold four bytes; a short read is the transport's FrameLengthError, found
  before the block is driven (60_exceptions.md R62). -/
  | frameBytes (p : Port) (n : Nat)
  deriving DecidableEq, Repr

/-- The named errors of 60_exceptions.md R59 that have a status code. -/
inductive Err where
  /-- DEC only (R60). -/
  | checksumError
  /-- The transport's; the block never produces it (R62). -/
  | frameLengthError
  /-- ENC only (R61). -/
  | kindError
  deriving DecidableEq, Repr

/-- How an operation ends: with its result, or with one named error and no result (00_scope.md R8,
60_exceptions.md R59). -/
inductive OpResult (α : Type) where
  | ok (v : α)
  | raise (e : Err)
  deriving DecidableEq, Repr

end Sys2Proof
end

