-- ==== Sys2Proof/Config.lean ====
section
/-! DEFINITION. Config.lean: what is fixed for the design (00_scope.md R4), and the values the spec leaves open, as
constants with no body. The table `CMD_OPCODE` itself is in Machine/CommandTable.lean. -/

namespace Sys2Proof

/-- The reading kinds (`KIND_COUNT` = 3; 00_scope.md R10, 30_encoding.md R30). -/
inductive Kind where
  /-- RawVelocity -/
  | rv
  /-- FilteredVelocity -/
  | fv
  /-- Temperature -/
  | temp
  deriving DecidableEq, Repr

/-- The command lookup table's three entries, one command frame for each kind (10_state.md R15). -/
structure CmdTable where
  rv : Frame
  fv : Frame
  temp : Frame
  deriving DecidableEq, Repr

namespace Config

/-- `FRAME_BYTES` (00_scope.md R4). -/
def frameBytes : Nat := 4

/-- What the pins of `enc_frame` show while `enc_status` is not OK, for a step count and the selector driven: any
32-bit value, possibly varying (40_command_encoder.md R46; log 6). -/
opaque freeEncFrame : Nat → Ksel → Frame

/-- What the pins of `dec_mag` show while `dec_status` is not OK, for a step count and the frame driven: any 16-bit
value, not the same on two evaluations (42_frame_decoder.md R55; log 7). -/
opaque freeDecMag : Nat → Frame → Mag

/-- `LATENCY`: the register stages of an implementation, left open; no rule depends on it (00_scope.md R4,
70_reset_and_hazards.md R79; log 10). -/
opaque latency : Nat

end Config

end Sys2Proof
end

