-- ==== Sys2Proof/Machine/Operands.lean ====
section
/-! DEFINITION. Operands.lean: how operands lie in a port value: the byte lanes of a frame and their packing, the
fields of a frame, the byte XOR, and the codes of the kind selector. -/

namespace Sys2Proof.Machine

/-- `f.b[i] = f[31-8i : 24-8i]` (00_scope.md R6, 20_memory.md R20). -/
def lane (f : Frame) (i : Fin 4) : Byte := f.extractLsb' (24 - 8 * i.val) 8

/-- The byte list `[b0, b1, b2, b3]` as the port value `b0 ++ b1 ++ b2 ++ b3` (00_scope.md R6). -/
def pack (b0 b1 b2 b3 : Byte) : Frame := b0 ++ b1 ++ b2 ++ b3

/-- The frame's bytes in lane order, lane 0 first on the wire (20_memory.md R19). -/
def laneBytes (f : Frame) : List Byte := [lane f 0, lane f 1, lane f 2, lane f 3]

/-- `a ^ b` (00_scope.md R7, 41_checksum_validator.md R47). -/
def byteXor (a b : Byte) : Byte := a ^^^ b

/-- `b0 ^ b1 ^ b2`, over the full formula for every frame (41_checksum_validator.md R48, R49). -/
def calcChecksum (f : Frame) : Byte := byteXor (byteXor (lane f 0) (lane f 1)) (lane f 2)

/-- The checksum operand `b3 = f[7:0]` (30_encoding.md R35). -/
def checksumField (f : Frame) : Byte := lane f 3

/-- MAGX: the magnitude operand `b0 ++ b1`, big-endian and unsigned (42_frame_decoder.md R52, 20_memory.md R21). -/
def magx (f : Frame) : Mag := lane f 0 ++ lane f 1

/-- The opcode of a command frame, `f[31:24]`; no unit decodes it (30_encoding.md R35). -/
def opcodeField (f : Frame) : Byte := lane f 0

/-- The KSEL code of a reading kind (30_encoding.md R30). -/
def kindCode : Kind → Ksel
  | .rv => 0b00
  | .fv => 0b01
  | .temp => 0b10

/-- The reserved KSEL code (30_encoding.md R37 item 1). -/
def reservedCode : Ksel := 0b11

/-- The reading kind a KSEL code selects; code `0b11` selects none (30_encoding.md R30). -/
def kindOfCode (k : Ksel) : Option Kind :=
  if k = 0b00 then some .rv
  else if k = 0b01 then some .fv
  else if k = 0b10 then some .temp
  else none

end Sys2Proof.Machine
end

