-- ==== Sys2Proof/Syntax.lean ====
section
/-! DEFINITION. Syntax.lean: the operations of the block, one constructor for each row of spec/opcode_table.json. -/

namespace Sys2Proof

/-- An operation: one drive of one unit's input port (30_encoding.md R39, R40). MAGX is DEC's datapath and no
operation of its own (42_frame_decoder.md R52). -/
inductive Instr where
  /-- ENC.RV: `ENC RV`, `enc_ksel = 0b00` (40_command_encoder.md R43). -/
  | encRv
  /-- ENC.FV: `ENC FV`, `enc_ksel = 0b01` (R44). -/
  | encFv
  /-- ENC.TEMP: `ENC TEMP`, `enc_ksel = 0b10` (R45). -/
  | encTemp
  /-- ENC.RESERVED: `ENC #3`, `enc_ksel = 0b11` (R46). -/
  | encReserved
  /-- CHK: `CHK <frame>`, any 32-bit value on `chk_frame` (41_checksum_validator.md R48). -/
  | chk (f : Frame)
  /-- DEC: `DEC <frame>`, any 32-bit value on `dec_frame` (42_frame_decoder.md R53). -/
  | dec (f : Frame)
  deriving DecidableEq, Repr

end Sys2Proof
end

