-- ==== Sys2Proof/WellFormed.lean ====
section
/-! DEFINITION. WellFormed.lean: which bytes a port can carry. An `Instr` needs no check of its own: its operand has
the port's exact width in its type, and every value of that width is legal (30_encoding.md R37 item 5). -/

namespace Sys2Proof

/-- The drive of `enc_ksel` is one byte whose upper six bits are zero: the port is two bits wide (30_encoding.md R30,
R38; log 3). -/
def kselBytesWf : List Byte → Bool
  | [b] => b.toNat < 4
  | _ => false

/-- The drive of a frame port is exactly `FRAME_BYTES` bytes, with any values (20_memory.md R23). -/
def frameBytesWf (bs : List Byte) : Bool := bs.length == Config.frameBytes

/-- The bytes fit the port they are put on. -/
def Drive.wf (d : Drive) : Bool :=
  match d.port with
  | .enc => kselBytesWf d.bytes
  | .chk => frameBytesWf d.bytes
  | .dec => frameBytesWf d.bytes

end Sys2Proof
end

