-- ==== Sys2Proof/Decode.lean ====
section
/-! DEFINITION. Decode.lean: from the bytes driven on a port to the operation, total and rejecting by name; and the
encoder, from an operation to its drive. The port selects the unit (30_encoding.md R40); only ENC's rows match on a
value, the KSEL code (R30). -/

namespace Sys2Proof

open Machine

/-- The unit an operation runs on (30_encoding.md R40). -/
def Instr.port : Instr → Port
  | .encRv => .enc
  | .encFv => .enc
  | .encTemp => .enc
  | .encReserved => .enc
  | .chk _ => .chk
  | .dec _ => .dec

/-- ENC's operation for a reading kind (30_encoding.md R39). -/
def encInstr : Kind → Instr
  | .rv => .encRv
  | .fv => .encFv
  | .temp => .encTemp

/-- The KSEL format: bits 1:0 of the byte select the row, and the other bits are no part of the port
(30_encoding.md R30; log 3). -/
def decodeKsel (b : Byte) : Except Reject Instr :=
  if b = 0b00 then .ok .encRv
  else if b = 0b01 then .ok .encFv
  else if b = 0b10 then .ok .encTemp
  else if b = 0b11 then .ok .encReserved
  else .error (.kselRange b)

/-- The FRAME and RSP formats: four bytes in lane order, any values (30_encoding.md R31, R33, R37 item 5). -/
def decodeFrame (p : Port) (op : Frame → Instr) : List Byte → Except Reject Instr
  | [b0, b1, b2, b3] => .ok (op (pack b0 b1 b2 b3))
  | bs => .error (.frameBytes p bs.length)

/-- The operation a drive stands for, or why no port can carry it. -/
def decode (d : Drive) : Except Reject Instr :=
  match d.port with
  | .enc =>
    match d.bytes with
    | [b] => decodeKsel b
    | bs => .error (.kselBytes bs.length)
  | .chk => decodeFrame .chk .chk d.bytes
  | .dec => decodeFrame .dec .dec d.bytes

/-- The drive of an operation, from the table's encodings (30_encoding.md R30, R31, R33). -/
def encode : Instr → Drive
  | .encRv => ⟨.enc, [0b00]⟩
  | .encFv => ⟨.enc, [0b01]⟩
  | .encTemp => ⟨.enc, [0b10]⟩
  | .encReserved => ⟨.enc, [0b11]⟩
  | .chk f => ⟨.chk, laneBytes f⟩
  | .dec f => ⟨.dec, laneBytes f⟩

/-- The `n` low bytes of `w`, the most significant first: lane 0 is bits 31:24 of the port (20_memory.md R20). -/
def wordBytes (n w : Nat) : List Byte :=
  match n with
  | 0 => []
  | m + 1 => BitVec.ofNat 8 (w >>> (8 * m)) :: wordBytes m w

/-- A bare table word as a drive. One byte is a row of width 2, on `enc_ksel`; a longer word is taken as a drive of
`chk_frame`, since no bit of it tells CHK from DEC (30_encoding.md R40; log 4). -/
def tableDrive (nbits w : Nat) : Drive :=
  if nbits ≤ 8 then ⟨.enc, wordBytes 1 w⟩ else ⟨.chk, wordBytes ((nbits + 7) / 8) w⟩

/-- What the decoder reads from a bare table word (log 4). -/
def decodeTableWord (nbits w : Nat) : Option Instr :=
  match decode (tableDrive nbits w) with
  | .ok i => some i
  | .error _ => none

end Sys2Proof
end

