-- ==== Sys2Proof/Machine/CommandTable.lean ====
section
/-! DEFINITION. CommandTable.lean: the configuration table `CMD_OPCODE` and the command lookup table built from it
(40_command_encoder.md R41). -/

namespace Sys2Proof

/-- `CMD_OPCODE`: the opcode byte of each kind (00_scope.md R4, 40_command_encoder.md R41). UNVERIFIED literals, by
the spec's own warning (decision D18; log 9). -/
def Config.cmdOpcode : Kind → Byte
  | .rv => 0x09
  | .fv => 0x01
  | .temp => 0x02

namespace Machine

/-- A command frame from its opcode: `op ++ 0x00 ++ 0x00 ++ (op ^ 0x00 ^ 0x00)`, its checksum byte always by the XOR
formula (40_command_encoder.md R41). -/
def cmdEntry (op : Byte) : Frame := pack op 0x00 0x00 (byteXor (byteXor op 0x00) 0x00)

/-- The constant contents of `LUT` (40_command_encoder.md R41). -/
def cmdTable : CmdTable where
  rv := cmdEntry (Config.cmdOpcode .rv)
  fv := cmdEntry (Config.cmdOpcode .fv)
  temp := cmdEntry (Config.cmdOpcode .temp)

/-- `LUT[k]`: the entry of a kind (00_scope.md R8, 10_state.md R15). -/
def lutEntry (t : CmdTable) : Kind → Frame
  | .rv => t.rv
  | .fv => t.fv
  | .temp => t.temp

end Machine

end Sys2Proof
end

