-- ==== Sys2Proof/Machine/Units.lean ====
section
/-! DEFINITION. Units.lean: the function of each unit, from its input port to its outputs. Each is a total function of
its present input, and reads nothing else but the constant table (00_scope.md R9, 10_state.md R17). -/

namespace Sys2Proof.Machine

/-- ENC: one lookup in the table; KindError on code `0b11` (40_command_encoder.md R42, R46). -/
def encOp (t : CmdTable) (k : Ksel) : OpResult Frame :=
  match kindOfCode k with
  | some kind => .ok (lutEntry t kind)
  | none => .raise .kindError

/-- `chk_ok`: the computed checksum equals lane 3 (41_checksum_validator.md R48). -/
def frameOk (f : Frame) : Bool := calcChecksum f == checksumField f

/-- DEC: ChecksumError when the computed checksum differs from lane 3, else the magnitude
(42_frame_decoder.md R53). -/
def decOp (f : Frame) : OpResult Mag :=
  if frameOk f then .ok (magx f) else .raise .checksumError

end Sys2Proof.Machine
end

