-- ==== Sys2Proof/Machine/State.lean ====
section
/-! DEFINITION. State.lean: the block's state as plain data, why a step can stop, and the block at power-up. -/

namespace Sys2Proof.Machine

/-- A stop of the machine on a fault. The block has no trap mechanism and no error stops it (60_exceptions.md R67):
an error is a returned status (00_scope.md R8). So there is no fault to raise, and nobody raises one (log 13). -/
inductive Fault where
  deriving DecidableEq, Repr

/-- Why a step has no meaning. -/
inductive Refusal where
  /-- Raised by `exec`'s arm of an instruction that has no meaning yet. Safe. No arm raises it. -/
  | notModelled (mnemonic : String)
  /-- Raised by `step` on a pending drive whose bytes no port can carry (20_memory.md R23, 60_exceptions.md R62): the
  block is not driven. Safe (log 3). -/
  | undrivable (why : Reject)
  deriving DecidableEq, Repr

/-- The block's one storage, the present value of every port, and the model's own two fields (log 1). An output
port pair `status, value` is held once, as the operation's outcome (60_exceptions.md R59). -/
structure State where
  /-- `LUT`, which nothing writes (10_state.md R15; log 11). -/
  lut : CmdTable
  /-- `enc_ksel` (10_state.md R17). -/
  encKsel : Ksel
  /-- `enc_status` and `enc_frame` (10_state.md R17). -/
  encOut : OpResult Frame
  /-- `chk_frame` (10_state.md R17). -/
  chkFrame : Frame
  /-- `chk_calc` (10_state.md R17). -/
  chkCalc : Byte
  /-- `chk_ok` (10_state.md R17). -/
  chkOk : Bool
  /-- `dec_frame` (10_state.md R17). -/
  decFrame : Frame
  /-- `dec_status` and `dec_mag` (10_state.md R17). -/
  decOut : OpResult Mag
  /-- The caller's next drives, oldest first: the model's own (10_state.md R13; log 2). -/
  pending : List Drive
  /-- How many steps were taken: the model's own, read only by the free values (log 8). -/
  samples : Nat
  deriving DecidableEq, Repr

/-- The block at power-up: the table holds its contents (10_state.md R15) and every output is the function of the input
then present (70_reset_and_hazards.md R75, R76). The inputs then present are DESIGN CHOICE 0 (log 5). -/
def State.reset : State where
  lut := cmdTable
  encKsel := 0
  encOut := encOp cmdTable 0
  chkFrame := 0
  chkCalc := calcChecksum 0
  chkOk := frameOk 0
  decFrame := 0
  decOut := decOp 0
  pending := []
  samples := 0

end Sys2Proof.Machine
end

