-- ==== Sys2Proof/Machine/Flags.lean ====
section
/-! DEFINITION. Flags.lean: the status codes. The block has no persistent flags (10_state.md R14): a status is the
outcome of the operation on its own unit's output, written here as the code of 30_encoding.md R36. -/

namespace Sys2Proof.Machine

/-- The code of an error (30_encoding.md R36). -/
def errCode : Err → StatusCode
  | .checksumError => 0b01
  | .frameLengthError => 0b10
  | .kindError => 0b11

/-- The code of an outcome; OK is `0b00` (30_encoding.md R36). -/
def statusCode {α : Type} : OpResult α → StatusCode
  | .ok _ => 0b00
  | .raise e => errCode e

end Sys2Proof.Machine
end

