-- ==== Sys2Proof/Machine/Ops.lean ====
section
/-! DEFINITION. Ops.lean: the shared operations on the state: driving a unit's input port, idling, taking the caller's
next drive, and reading the output ports. An error is not an exception with an entry: it saves nothing, changes no mode
and transfers no control (60_exceptions.md R67), so a drive that ends in one is the same write of the unit's own
outcome, and there is no return from it (R69). -/

namespace Sys2Proof.Machine

/-- Drive `enc_ksel` (40_command_encoder.md R42). -/
def driveEnc (k : Ksel) (s : State) : State :=
  { s with encKsel := k, encOut := encOp s.lut k, samples := s.samples + 1 }

/-- Drive `chk_frame` (41_checksum_validator.md R48). -/
def driveChk (f : Frame) (s : State) : State :=
  { s with chkFrame := f, chkCalc := calcChecksum f, chkOk := frameOk f, samples := s.samples + 1 }

/-- Drive `dec_frame` (42_frame_decoder.md R53). -/
def driveDec (f : Frame) (s : State) : State :=
  { s with decFrame := f, decOut := decOp f, samples := s.samples + 1 }

/-- Nothing is driven: every outcome stands (log 2); only the free values may vary (log 8). -/
def idle (s : State) : State := { s with samples := s.samples + 1 }

/-- The caller's next drive, and the state with it taken off the queue (10_state.md R13; log 2). -/
def fetch (s : State) : Option (Drive × State) :=
  match s.pending with
  | [] => none
  | d :: rest => some (d, { s with pending := rest })

/-- The port `enc_frame`: the frame when `enc_status` is OK, any value otherwise (40_command_encoder.md R46; log 6). -/
def encFramePort (s : State) : Frame :=
  match s.encOut with
  | .ok f => f
  | .raise _ => Config.freeEncFrame s.samples s.encKsel

/-- The port `enc_status` (30_encoding.md R36). -/
def encStatusPort (s : State) : StatusCode := statusCode s.encOut

/-- The port `chk_calc` (41_checksum_validator.md R48). -/
def chkCalcPort (s : State) : Byte := s.chkCalc

/-- The port `chk_ok`, one bit (41_checksum_validator.md R48). -/
def chkOkPort (s : State) : BitVec 1 := BitVec.ofBool s.chkOk

/-- The port `dec_status` (30_encoding.md R36). -/
def decStatusPort (s : State) : StatusCode := statusCode s.decOut

/-- The port `dec_mag`: the magnitude when `dec_status` is OK, any value otherwise (42_frame_decoder.md R55; log 7). -/
def decMagPort (s : State) : Mag :=
  match s.decOut with
  | .ok m => m
  | .raise _ => Config.freeDecMag s.samples s.decFrame

end Sys2Proof.Machine
end

