-- ==== Sys2Proof/Machine/Decoder.lean ====
section
/-! DEFINITION. Decoder.lean: the operation of the frame decoder (42_frame_decoder.md). -/

namespace Sys2Proof.Machine

/-- DEC: the magnitude of a valid frame, or ChecksumError and no magnitude (42_frame_decoder.md R53, R55). -/
def execDec (f : Frame) (s : State) : Host.Outcome State Fault Refusal := .next (driveDec f s)

end Sys2Proof.Machine
end

