-- ==== Sys2Proof/Machine/Encoder.lean ====
section
/-! DEFINITION. Encoder.lean: the operations of the command encoder (40_command_encoder.md). -/

namespace Sys2Proof.Machine

/-- ENC.RV (40_command_encoder.md R43). -/
def execEncRv (s : State) : Host.Outcome State Fault Refusal := .next (driveEnc (kindCode .rv) s)

/-- ENC.FV (40_command_encoder.md R44). -/
def execEncFv (s : State) : Host.Outcome State Fault Refusal := .next (driveEnc (kindCode .fv) s)

/-- ENC.TEMP (40_command_encoder.md R45). -/
def execEncTemp (s : State) : Host.Outcome State Fault Refusal := .next (driveEnc (kindCode .temp) s)

/-- ENC.RESERVED: the outcome is KindError and no frame (40_command_encoder.md R46). -/
def execEncReserved (s : State) : Host.Outcome State Fault Refusal := .next (driveEnc reservedCode s)

end Sys2Proof.Machine
end

