-- ==== Sys2Proof/Machine/Validator.lean ====
section
/-! DEFINITION. Validator.lean: the operation of the XOR checksum validator (41_checksum_validator.md). -/

namespace Sys2Proof.Machine

/-- CHK: an invalid frame is a legal input whose result is `chk_ok = 0` (41_checksum_validator.md R48). -/
def execChk (f : Frame) (s : State) : Host.Outcome State Fault Refusal := .next (driveChk f s)

end Sys2Proof.Machine
end

