-- ==== Sys2Proof/Machine/Dispatch.lean ====
section
/-! DEFINITION. Dispatch.lean: one arm for each constructor of `Instr`. -/

namespace Sys2Proof.Machine

def exec (i : Instr) (s : State) : Host.Outcome State Fault Refusal :=
  match i with
  -- the command encoder
  | .encRv => Sys2Proof.Machine.execEncRv s
  | .encFv => Sys2Proof.Machine.execEncFv s
  | .encTemp => Sys2Proof.Machine.execEncTemp s
  | .encReserved => Sys2Proof.Machine.execEncReserved s
  -- the XOR checksum validator
  | .chk f => Sys2Proof.Machine.execChk f s
  -- the frame decoder
  | .dec f => Sys2Proof.Machine.execDec f s

end Sys2Proof.Machine
end

