-- ==== Sys2Proof/Machine/Step.lean ====
section
/-! DEFINITION. Step.lean: one step is one operation of the caller's, from inputs to outputs (70_reset_and_hazards.md
R79). -/

namespace Sys2Proof.Machine

/-- Take the caller's next drive, decode it and run it; with none pending, idle (10_state.md R13; log 2). -/
def step (s : State) : Host.Outcome State Fault Refusal :=
  match fetch s with
  | none => .next (idle s)
  | some (d, s') =>
    match decode d with
    | .ok i => exec i s'
    | .error why => .refused (.undrivable why)

/-- Place a bare table word as the caller's very next drive (log 2, log 4). -/
def State.withFetchWord (s : State) (nbits w : Nat) : State :=
  { s with pending := tableDrive nbits w :: s.pending }

end Sys2Proof.Machine
end

