-- ==== Sys2Proof/Safety.lean ====
section
/-! DEFINITION. Safety.lean: the terms claims are stated in: what a unit's ports show, the invariant of the block, a
run that never stops, and the caller's duties (70_reset_and_hazards.md R77), which the block does not check (decision
D15; log 14). -/

namespace Sys2Proof

namespace Machine

/-- What the ports of one unit show: its input, and the outcome on its outputs (10_state.md R17). -/
inductive UnitView where
  | enc (ksel : Ksel) (out : OpResult Frame)
  | chk (frame : Frame) (checksum : Byte) (valid : Bool)
  | dec (frame : Frame) (out : OpResult Mag)
  deriving DecidableEq, Repr

/-- The present view of the unit behind a port. -/
def State.unitView (s : State) : Port → UnitView
  | .enc => .enc s.encKsel s.encOut
  | .chk => .chk s.chkFrame s.chkCalc s.chkOk
  | .dec => .dec s.decFrame s.decOut

/-- The table holds its constant contents (10_state.md R15). -/
abbrev State.lutIntact (s : State) : Prop := s.lut = cmdTable

/-- Every output is the function of its own unit's present input (10_state.md R17, 70_reset_and_hazards.md R75). -/
abbrev State.settled (s : State) : Prop :=
  s.encOut = encOp s.lut s.encKsel ∧ s.chkCalc = calcChecksum s.chkFrame ∧ s.chkOk = frameOk s.chkFrame ∧
    s.decOut = decOp s.decFrame

/-- What every reachable state keeps. -/
abbrev State.Inv (s : State) : Prop := s.lutIntact ∧ s.settled

/-- Every pending drive can be carried by its port: the caller's duty 1 (70_reset_and_hazards.md R77). -/
abbrev State.queueOk (s : State) : Prop := ∀ d ∈ s.pending, d.wf = true

/-- The caller's duty 3: transmit `enc_frame` only when `enc_status` is OK (70_reset_and_hazards.md R77). -/
def State.mayTransmit (s : State) : Bool := encStatusPort s == 0b00

/-- The caller's duty 4: read `dec_mag` only when `dec_status` is OK (70_reset_and_hazards.md R77). -/
def State.mayReadMag (s : State) : Bool := decStatusPort s == 0b00

/-- `n` steps of the host's machine from a state, stopping at the first fault or refusal. -/
def runSteps (n : Nat) (s : State) : Host.Outcome State Fault Refusal := Host.Core.run core n s

/-- The XOR of a frame's four lanes, the only thing validity depends on (41_checksum_validator.md R50). -/
def laneXor (f : Frame) : Byte := byteXor (byteXor (byteXor (lane f 0) (lane f 1)) (lane f 2)) (lane f 3)

/-- In how many of the four bytes an error pattern flips the bit position `b` (41_checksum_validator.md R51). -/
def flipsAt (m : Frame) (b : Nat) : Nat := (List.finRange 4).countP fun l => (lane m l).getLsbD b

end Machine

namespace Safety

/-- No step of any run from this state stops on a fault or a refusal. -/
def NeverStops (s : Machine.State) : Prop := ∀ n, ∃ t, Machine.runSteps n s = .next t

/-- What the caller does with the shared transport (20_memory.md R27). -/
inductive CallerEvent where
  /-- It sends the command frame of a kind. -/
  | command (k : Kind)
  /-- It takes a response frame from the transport and drives it on `dec_frame`. -/
  | response (f : Frame)
  /-- The transport fails. -/
  | failure
  deriving DecidableEq, Repr

/-- The caller's duty 2: at most one transaction in flight (20_memory.md R27). `waiting` says whether a command is still
waiting for its response. A response is taken only for a waiting command, and a command is sent only when none
waits. -/
def CallerEvent.oneInFlight : (waiting : Bool) → List CallerEvent → Bool
  | _, [] => true
  | w, .command _ :: es => !w && oneInFlight true es
  | w, .response _ :: es => w && oneInFlight false es
  | _, .failure :: es => oneInFlight false es

end Safety

end Sys2Proof
end

