-- ==== Sys2Proof/Certificates/Slice0/Obligations.lean ====
section
/-! DEFINITION. Obligations.lean: the statements about the block, each from the rules its docstring names. Where a
statement gives a whole next state, `samples` advancing by one is the model's own (log 8) and no rule's. -/

open Sys2Proof Sys2Proof.Machine

/-! ### The command encoder -/

/-- ENC.RV completes with `LUT[0]` and OK, and changes nothing but ENC's own ports; its frame's checksum is `0x09`, and
DEC of it succeeds with 2304 (40_command_encoder.md R43). The premise is the table's constant contents (log 11). -/
def Obligations.EncRvGivesRawVelocityFrame : Prop :=
  decode ⟨.enc, [0b00]⟩ = .ok .encRv ∧ calcChecksum 0x09000009 = 0x09 ∧
    ∀ s : State, s.lutIntact →
      ∃ t u, exec .encRv s = .next t ∧
        t = { s with encKsel := 0b00, encOut := .ok 0x09000009, samples := s.samples + 1 } ∧
        encFramePort t = pack 0x09 0x00 0x00 0x09 ∧ encStatusPort t = 0b00 ∧
        exec (.dec 0x09000009) t = .next u ∧ u.decOut = .ok 0x0900 ∧ (decMagPort u).toNat = 2304

/-- ENC.FV completes with `LUT[1]` and OK, and changes nothing but ENC's own ports; its frame's checksum is `0x01`, and
DEC of it succeeds with 256 (40_command_encoder.md R44). The premise is the table's constant contents (log 11). -/
def Obligations.EncFvGivesFilteredVelocityFrame : Prop :=
  decode ⟨.enc, [0b01]⟩ = .ok .encFv ∧ calcChecksum 0x01000001 = 0x01 ∧
    ∀ s : State, s.lutIntact →
      ∃ t u, exec .encFv s = .next t ∧
        t = { s with encKsel := 0b01, encOut := .ok 0x01000001, samples := s.samples + 1 } ∧
        encFramePort t = pack 0x01 0x00 0x00 0x01 ∧ encStatusPort t = 0b00 ∧
        exec (.dec 0x01000001) t = .next u ∧ u.decOut = .ok 0x0100 ∧ (decMagPort u).toNat = 256

/-- ENC.TEMP completes with `LUT[2]` and OK, and changes nothing but ENC's own ports; its frame's checksum is `0x02`,
and DEC of it succeeds with 512 (40_command_encoder.md R45). The premise is the table's constant contents (log 11). -/
def Obligations.EncTempGivesTemperatureFrame : Prop :=
  decode ⟨.enc, [0b10]⟩ = .ok .encTemp ∧ calcChecksum 0x02000002 = 0x02 ∧
    ∀ s : State, s.lutIntact →
      ∃ t u, exec .encTemp s = .next t ∧
        t = { s with encKsel := 0b10, encOut := .ok 0x02000002, samples := s.samples + 1 } ∧
        encFramePort t = pack 0x02 0x00 0x00 0x02 ∧ encStatusPort t = 0b00 ∧
        exec (.dec 0x02000002) t = .next u ∧ u.decOut = .ok 0x0200 ∧ (decMagPort u).toNat = 512

/-- ENC.RESERVED completes, in every state: `enc_status` is KIND_ERROR, the outcome holds no frame, the caller may not
transmit, and nothing but ENC's own ports changes (40_command_encoder.md R46). Nothing is said of the pins of
`enc_frame` (log 6). -/
def Obligations.EncReservedRaisesKindErrorWithNoFrame : Prop :=
  decode ⟨.enc, [0b11]⟩ = .ok .encReserved ∧
    ∀ s : State, ∃ t, exec .encReserved s = .next t ∧
      t = { s with encKsel := 0b11, encOut := .raise .kindError, samples := s.samples + 1 } ∧
      encStatusPort t = 0b11 ∧ t.mayTransmit = false ∧ ∀ f, t.encOut ≠ .ok f

/-- ENC is one lookup: it answers the table's entry of the kind driven, whatever the table holds, and KindError on code
`0b11` alone; with the table's constant contents every frame it answers is one CHK finds valid
(40_command_encoder.md R42). -/
def Obligations.EncoderLooksUpTheKindsEntry : Prop :=
  (∀ (k : Kind) (s : State), ∃ t, exec (encInstr k) s = .next t ∧
      t = { s with encKsel := kindCode k, encOut := .ok (lutEntry s.lut k), samples := s.samples + 1 } ∧
      encFramePort t = lutEntry s.lut k ∧ encStatusPort t = 0b00 ∧
      (s.lutIntact → ∃ u, exec (.chk (encFramePort t)) t = .next u ∧ u.chkOk = true)) ∧
    ∀ s : State, ∃ t, exec .encReserved s = .next t ∧ t.encOut = .raise .kindError

/-- The table's contents at power-up: each entry is built from its kind's opcode, its checksum byte by the XOR formula,
and the entries are the three port values under the codes 0, 1 and 2 (40_command_encoder.md R41). -/
def Obligations.CommandTableHoldsTheThreeFrames : Prop :=
  (∀ k : Kind, lutEntry State.reset.lut k =
      Config.cmdOpcode k ++ 0x00#8 ++ 0x00#8 ++ (Config.cmdOpcode k ^^^ 0x00#8 ^^^ 0x00#8)) ∧
    (Config.cmdOpcode .rv = 0x09 ∧ lutEntry State.reset.lut .rv = 0x09000009 ∧ kindCode .rv = 0) ∧
    (Config.cmdOpcode .fv = 0x01 ∧ lutEntry State.reset.lut .fv = 0x01000001 ∧ kindCode .fv = 1) ∧
    (Config.cmdOpcode .temp = 0x02 ∧ lutEntry State.reset.lut .temp = 0x02000002 ∧ kindCode .temp = 2) ∧
    ∀ k : Kind, kindCode k ≠ 0b11

/-- No run of any length writes the table, from any state; so it holds its contents at power-up and ever after
(10_state.md R15, 20_memory.md R29). -/
def Obligations.NoRunWritesTheCommandTable : Prop :=
  State.reset.lutIntact ∧
    ∀ (n : Nat) (s t : State), runSteps n s = .next t → t.lut = s.lut

/-! ### The XOR checksum validator -/

/-- The byte XOR is bit by bit, associative and commutative, with `0x00` neutral and each byte its own inverse; and
`chk_calc` is that XOR of the three leading lanes, bit for bit (41_checksum_validator.md R47). -/
def Obligations.ByteXorIsBitwise : Prop :=
  (∀ (a b : Byte) (i : Nat), i < 8 → (byteXor a b).getLsbD i = (a.getLsbD i ^^ b.getLsbD i)) ∧
    (∀ a b c : Byte, byteXor (byteXor a b) c = byteXor a (byteXor b c)) ∧
    (∀ a b : Byte, byteXor a b = byteXor b a) ∧ (∀ a : Byte, byteXor a 0x00 = a ∧ byteXor a a = 0x00) ∧
    ∀ (f : Frame) (s : State), ∃ t, exec (.chk f) s = .next t ∧ ∀ i < 8,
      t.chkCalc.getLsbD i = ((lane f 0).getLsbD i ^^ (lane f 1).getLsbD i ^^ (lane f 2).getLsbD i)

/-- CHK completes on every frame and in every state with the full formula's two results, and changes nothing but its
own ports; the command-shaped frame that the shortcut would accept is invalid (41_checksum_validator.md R49). -/
def Obligations.ChkAppliesTheFullFormula : Prop :=
  (∀ (f : Frame) (s : State), exec (.chk f) s = .next { s with
      chkFrame := f, chkCalc := lane f 0 ^^^ lane f 1 ^^^ lane f 2,
      chkOk := decide (lane f 0 ^^^ lane f 1 ^^^ lane f 2 = lane f 3), samples := s.samples + 1 }) ∧
    ∀ s : State, ∃ t u,
      exec (.chk (pack 0x01 0x05 0x00 0x01)) s = .next t ∧ t.chkCalc = 0x04 ∧ t.chkOk = false ∧
      exec (.chk (pack 0x01 0x05 0x00 0x04)) s = .next u ∧ u.chkOk = true

/-- CHK's validity in full: the computed checksum and its comparison with lane 3, for every frame; the all-zero and
all-ones frames; the four lanes XOR to zero exactly when valid; one value of lane 3 for each three leading bytes; and
as many valid frames as 24-bit values (41_checksum_validator.md R48). -/
def Obligations.ChkDecidesTheChecksumInvariant : Prop :=
  (∀ (f : Frame) (s : State), ∃ t, exec (.chk f) s = .next t ∧
      chkCalcPort t = byteXor (byteXor (lane f 0) (lane f 1)) (lane f 2) ∧
      (chkOkPort t = 1 ↔ chkCalcPort t = lane f 3) ∧ (chkOkPort t = 0 ↔ chkCalcPort t ≠ lane f 3) ∧
      (t.chkOk = true ↔ laneXor f = 0x00)) ∧
    frameOk 0x00000000 = true ∧ frameOk 0xFFFFFFFF = true ∧
    (∀ b0 b1 b2 : Byte, ∃! b3 : Byte, frameOk (pack b0 b1 b2 b3) = true) ∧
    Nonempty (Subtype (fun f : Frame => frameOk f = true) ≃ BitVec 24) ∧
    (∀ s : State, ∃ t, exec (.chk (pack 0x01 0x2C 0x00 0x2D)) s = .next t ∧ t.chkCalc = 0x2D ∧ t.chkOk = true)

/-- CHK gives no meaning to any field: two frames whose four lanes XOR alike are both valid or both not, from whatever
states they are checked (41_checksum_validator.md R50, its "result" read as `chk_ok`, DEDUCED, log 15). -/
def Obligations.ChkOkDependsOnTheLaneXorAlone : Prop :=
  ∀ (f g : Frame) (s s' : State), laneXor f = laneXor g →
    ∃ t t', exec (.chk f) s = .next t ∧ exec (.chk g) s' = .next t' ∧ t.chkOk = t'.chkOk

/-- What the validator catches of an error pattern `m` on a valid frame: exactly the patterns whose lanes do not XOR to
zero; so every error within one byte, and every error that flips some bit position in an odd number of bytes; and it
misses exactly those that flip every bit position in an even number of bytes, for example the one that decodes as
`0x0101` (41_checksum_validator.md R51). -/
def Obligations.ChkCatchesExactlyTheOddFlips : Prop :=
  (∀ (f m : Frame) (s : State), frameOk f = true → ∃ t, exec (.chk (f ^^^ m)) s = .next t ∧
      (t.chkOk = false ↔ laneXor m ≠ 0x00) ∧
      ((∃ l, lane m l ≠ 0x00 ∧ ∀ l', l' ≠ l → lane m l' = 0x00) → t.chkOk = false) ∧
      ((∃ b < 8, flipsAt m b % 2 = 1) → t.chkOk = false) ∧
      (t.chkOk = true ↔ ∀ b < 8, flipsAt m b = 0 ∨ flipsAt m b = 2 ∨ flipsAt m b = 4)) ∧
    ∀ s : State, ∃ t, exec (.dec (pack 0x00 0x00 0x00 0x00 ^^^ pack 0x01 0x01 0x00 0x00)) s = .next t ∧
      t.decOut = .ok 0x0101

/-! ### The frame decoder -/

/-- DEC completes on every frame and in every state: on a frame whose checksum fits, with OK and the magnitude; on any
other, with CHECKSUM_ERROR and no magnitude; it changes nothing but its own ports. It succeeds exactly when CHK finds
the frame valid (42_frame_decoder.md R53). -/
def Obligations.DecChecksThenExtracts : Prop :=
  (∀ (f : Frame) (s : State), ∃ t u, exec (.dec f) s = .next t ∧ exec (.chk f) s = .next u ∧
      (lane f 0 ^^^ lane f 1 ^^^ lane f 2 = lane f 3 →
        t = { s with decFrame := f, decOut := .ok (magx f), samples := s.samples + 1 } ∧ decStatusPort t = 0b00 ∧
          decMagPort t = magx f) ∧
      (lane f 0 ^^^ lane f 1 ^^^ lane f 2 ≠ lane f 3 →
        t = { s with decFrame := f, decOut := .raise .checksumError, samples := s.samples + 1 } ∧
          decStatusPort t = 0b01) ∧
      (decStatusPort t = 0b00 ↔ chkOkPort u = 1)) ∧
    ∀ s : State, ∃ t, exec (.dec (pack 0x01 0x2C 0x00 0xFF)) s = .next t ∧ t.decOut = .raise .checksumError

/-- MAGX: lane 0 is the high byte and lane 1 the low byte, unsigned, from 0 to 65535; it is the frame's bits 31:16, and
lanes 2 and 3 do not matter (42_frame_decoder.md R52). -/
def Obligations.MagnitudeIsBigEndianUnsigned : Prop :=
  (∀ f : Frame, magx f = lane f 0 ++ lane f 1 ∧
      magx f = ((lane f 0).zeroExtend 16 <<< 8) ||| (lane f 1).zeroExtend 16 ∧
      magx f = f.extractLsb' 16 16 ∧ (magx f).toNat = 256 * (lane f 0).toNat + (lane f 1).toNat ∧
      (magx f).toNat ≤ 65535) ∧
    (∀ a b c d c' d' : Byte, magx (pack a b c d) = magx (pack a b c' d')) ∧
    (∀ c d : Byte, (magx (pack 0x00 0x00 c d)).toNat = 0 ∧ (magx (pack 0xFF 0xFF c d)).toNat = 65535 ∧
      (magx (pack 0x80 0x00 c d)).toNat = 32768) ∧ magx 0x012C002D = 300

/-- The reserved byte enters the checksum and nothing else: changed alone in a valid frame, it makes the frame invalid;
changed with the checksum to match, the frame is valid with the magnitude it had, whatever the byte
(42_frame_decoder.md R54). -/
def Obligations.ReservedByteEntersTheChecksumOnly : Prop :=
  (∀ (b0 b1 b2 b3 r : Byte) (s : State), frameOk (pack b0 b1 b2 b3) = true → ∃ t u v,
      exec (.dec (pack b0 b1 b2 b3)) s = .next t ∧
      exec (.dec (pack b0 b1 r b3)) s = .next u ∧ (r ≠ b2 → u.decOut = .raise .checksumError) ∧
      exec (.dec (pack b0 b1 r (byteXor (byteXor b0 b1) r))) s = .next v ∧ v.decOut = .ok (b0 ++ b1) ∧
      v.decOut = t.decOut) ∧
    ∀ s : State, ∃ t, exec (.dec (pack 0x01 0x2C 0xA5 0x88)) s = .next t ∧ t.decOut = .ok 300

/-- The result ports carry a value exactly when their status is OK, and then the rule's: `dec_mag` the magnitude of a
valid frame, `enc_frame` the entry of a defined kind. On any other status the outcome holds no number
(42_frame_decoder.md R55, 60_exceptions.md R65). The premise is the invariant StepKeepsTheInvariant keeps. -/
def Obligations.ErrorOutcomesCarryNoNumber : Prop :=
  ∀ s : State, s.Inv →
    (s.mayReadMag = true → frameOk s.decFrame = true ∧ s.decOut = .ok (magx s.decFrame) ∧
      decMagPort s = magx s.decFrame) ∧
    (s.mayReadMag = false → frameOk s.decFrame = false ∧ ∀ m, s.decOut ≠ .ok m) ∧
    (s.mayTransmit = true → ∃ k, s.encKsel = kindCode k ∧ encFramePort s = cmdEntry (Config.cmdOpcode k) ∧
      frameOk (encFramePort s) = true) ∧
    (s.mayTransmit = false → s.encKsel = 0b11 ∧ ∀ f, s.encOut ≠ .ok f)

/-- DEC has no reading-kind input: its outcome on a frame is the same from any two states, whatever kind each last
encoded and whatever table each holds (42_frame_decoder.md R56). -/
def Obligations.DecOutcomeIgnoresTheKind : Prop :=
  ∀ (f : Frame) (k k' : Kind) (s s' : State), ∃ a a' t t',
    exec (encInstr k) s = .next a ∧ exec (encInstr k') s' = .next a' ∧
    exec (.dec f) a = .next t ∧ exec (.dec f) a' = .next t' ∧ t.decOut = t'.decOut

/-- Round trip: for every defined kind, DEC of the frame ENC puts on its port succeeds, with the opcode shifted left by
8 (42_frame_decoder.md R58). The premise is the table's constant contents (log 11). -/
def Obligations.DecOfEncGivesOpcodeShifted : Prop :=
  (∀ (k : Kind) (s : State), s.lutIntact → ∃ t u, exec (encInstr k) s = .next t ∧
      exec (.dec (encFramePort t)) t = .next u ∧ decStatusPort u = 0b00 ∧
      u.decOut = .ok (Config.cmdOpcode k ++ 0x00#8) ∧
      decMagPort u = (Config.cmdOpcode k).zeroExtend 16 <<< 8) ∧
    (∀ s : State, s.lutIntact → ∃ a b c a' b' c', exec .encRv s = .next a ∧ exec (.dec 0x09000009) a = .next a' ∧
      encFramePort a = 0x09000009 ∧ a'.decOut = .ok 2304 ∧ exec .encFv s = .next b ∧
      exec (.dec 0x01000001) b = .next b' ∧ encFramePort b = 0x01000001 ∧ b'.decOut = .ok 256 ∧
      exec .encTemp s = .next c ∧ exec (.dec 0x02000002) c = .next c' ∧ encFramePort c = 0x02000002 ∧
      c'.decOut = .ok 512)

/-! ### All operations -/

/-- Each operation is a total function of its present inputs: it completes in every state, its own unit's ports then
show the same from any two states with one table, every other unit's ports and the table are as they were, and the
caller's queue is untouched (00_scope.md R9). -/
def Obligations.OperationsAreFunctionsOfTheirInputs : Prop :=
  ∀ (i : Instr) (s s' : State), s.lut = s'.lut → ∃ t t', exec i s = .next t ∧ exec i s' = .next t' ∧
    t.unitView i.port = t'.unitView i.port ∧ (∀ p, p ≠ i.port → t.unitView p = s.unitView p) ∧
    t.lut = s.lut ∧ t.pending = s.pending

/-- Operations on different units, in either order, reach the same state (20_memory.md R26). -/
def Obligations.DifferentUnitsCommute : Prop :=
  ∀ (i j : Instr) (s : State), i.port ≠ j.port → ∃ a b t,
    exec i s = .next a ∧ exec j a = .next t ∧ exec j s = .next b ∧ exec i b = .next t

/-- An operation after any other, one that ended in an error among them, shows what it would have shown without it
(60_exceptions.md R64). -/
def Obligations.EarlierOperationsLeaveNoTrace : Prop :=
  ∀ (i j : Instr) (s : State), ∃ a t t', exec i s = .next a ∧ exec j a = .next t ∧ exec j s = .next t' ∧
    t.unitView j.port = t'.unitView j.port

/-- Doing an operation twice shows, on every unit's ports, what doing it once shows (20_memory.md R25). -/
def Obligations.OperationsAreIdempotent : Prop :=
  ∀ (i : Instr) (s : State), ∃ t u, exec i s = .next t ∧ exec i t = .next u ∧ ∀ p, u.unitView p = t.unitView p

/-- After a step from a settled state, `enc_status` is OK or KIND_ERROR, the latter exactly on selector `0b11`, and
`dec_status` is OK or CHECKSUM_ERROR, the latter exactly on a frame whose computed checksum differs from lane 3; so
neither is ever FRAME_LENGTH_ERROR (60_exceptions.md R60, R61, R62). -/
def Obligations.StatusesAreTheUnitsOwn : Prop :=
  ∀ s t : State, s.settled → step s = .next t →
    (encStatusPort t = 0b00 ∨ encStatusPort t = 0b11) ∧ (encStatusPort t = 0b11 ↔ t.encKsel = 0b11) ∧
    (decStatusPort t = 0b00 ∨ decStatusPort t = 0b01) ∧
    (decStatusPort t = 0b01 ↔
      byteXor (byteXor (lane t.decFrame 0) (lane t.decFrame 1)) (lane t.decFrame 2) ≠ lane t.decFrame 3) ∧
    encStatusPort t ≠ 0b10 ∧ decStatusPort t ≠ 0b10

/-- The status codes, of an outcome that is OK and of each error, on ENC's outcome and on DEC's: an outcome has OK's
code exactly when it holds a result, and the ports `enc_status` and `dec_status` carry their own unit's outcome's code
(30_encoding.md R36). -/
def Obligations.StatusCodesAreTheTables : Prop :=
  (errCode .checksumError = 0b01 ∧ errCode .frameLengthError = 0b10 ∧ errCode .kindError = 0b11) ∧
    (∀ f : Frame, statusCode (OpResult.ok f) = 0b00) ∧ (∀ m : Mag, statusCode (OpResult.ok m) = 0b00) ∧
    (∀ e : Err, statusCode (OpResult.raise e : OpResult Frame) = errCode e) ∧
    (∀ e : Err, statusCode (OpResult.raise e : OpResult Mag) = errCode e) ∧
    (∀ r : OpResult Frame, statusCode r = 0b00 ↔ ∃ f, r = .ok f) ∧
    (∀ r : OpResult Mag, statusCode r = 0b00 ↔ ∃ m, r = .ok m) ∧
    ∀ s : State, encStatusPort s = statusCode s.encOut ∧ decStatusPort s = statusCode s.decOut

/-! ### Encodings -/

/-- Lane `i` sits at bits `[31-8i : 24-8i]`, so lane 0 is the most significant byte, as in the rule's example
(20_memory.md R20). -/
def Obligations.LanesSitAtTheirBits : Prop :=
  (∀ (f : Frame) (i : Fin 4) (j : Nat), j < 8 → (lane f i).getLsbD j = f.getLsbD (24 - 8 * i.val + j)) ∧
    (∀ b0 b1 b2 b3 : Byte, laneBytes (pack b0 b1 b2 b3) = [b0, b1, b2, b3]) ∧
    pack 0x01 0x2C 0x00 0x2D = 0x012C002D

/-- The fields of a frame are its bits, unscaled: the checksum operand is `f[7:0]`, compared with the XOR of `f[31:24]`,
`f[23:16]` and `f[15:8]`; the magnitude is `f[31:16]`, zero-extended to any wider number; and the opcode of a command
frame is `f[31:24]` (30_encoding.md R35). -/
def Obligations.FrameFieldsAreTheirBits : Prop :=
  (∀ f : Frame, checksumField f = f.extractLsb' 0 8 ∧ magx f = f.extractLsb' 16 16 ∧
      (magx f).toNat = f.toNat / 65536 ∧ opcodeField f = f.extractLsb' 24 8 ∧
      (frameOk f = true ↔ f.extractLsb' 0 8 = f.extractLsb' 24 8 ^^^ f.extractLsb' 16 8 ^^^ f.extractLsb' 8 8)) ∧
    ∀ (s : State) (k : Kind), s.lutIntact → ∃ t, exec (encInstr k) s = .next t ∧
      opcodeField (encFramePort t) = Config.cmdOpcode k

/-- Words written out from the spec's encodings decode to their rows, and bytes no port can carry to none
(30_encoding.md R30, R31, R33, R37). How a drive carries
bytes, and so the two rejections, is the model's choice (DESIGN CHOICE, log 3). -/
def Obligations.WrittenWordsDecode : Prop :=
  decode ⟨.enc, [0b00000000]⟩ = .ok .encRv ∧ decode ⟨.enc, [0b00000001]⟩ = .ok .encFv ∧
    decode ⟨.enc, [0b00000010]⟩ = .ok .encTemp ∧ decode ⟨.enc, [0b00000011]⟩ = .ok .encReserved ∧
    decode ⟨.enc, [0b00000100]⟩ = .error (.kselRange 4) ∧
    decode ⟨.chk, [0x01, 0x2C, 0x00, 0x2D]⟩ = .ok (.chk 0x012C002D) ∧
    decode ⟨.dec, [0x12, 0x34, 0x56, 0x70]⟩ = .ok (.dec 0x12345670) ∧
    decode ⟨.dec, [0x12, 0x34, 0x56]⟩ = .error (.frameBytes .dec 3)

/-- Decoding an operation's own drive gives the operation back, with every value of its operand
(30_encoding.md R30, R31, R33, R40; the bytes of a drive are the model's choice, DESIGN CHOICE, log 3). -/
def Obligations.DecodeOfEncodeIsTheOperation : Prop := ∀ i : Instr, decode (encode i) = .ok i

/-- A drive decodes exactly when its port can carry its bytes, and then to one operation, whose drive it is: no two
drives stand for one operation. That every selector code and every four-byte frame decodes, by its port, is
30_encoding.md R30, R37 and R40; how a drive carries bytes, so that a selector byte with an upper bit set is rejected
and each operation has one drive, is the model's choice (DESIGN CHOICE, log 3) and no rule's. -/
def Obligations.EncodeOfDecodeIsTheDrive : Prop :=
  (∀ d : Drive, d.wf = true ↔ ∃ i, decode d = .ok i) ∧ ∀ (d : Drive) (i : Instr), decode d = .ok i → encode i = d

/-! ### Steps and runs -/

/-- When the caller's next drive decodes to an operation, a step is that operation on the state with the drive taken
off the queue (10_state.md R13; the queue is the model's choice, DESIGN CHOICE, log 2). -/
def Obligations.StepRunsTheDecodedDrive : Prop :=
  ∀ (s : State) (d : Drive) (rest : List Drive) (i : Instr), s.pending = d :: rest → decode d = .ok i →
    step s = exec i { s with pending := rest }

/-- With no drive pending a step leaves every unit's ports and the table as they were: that such a step goes on is the
model's choice (DESIGN CHOICE, log 2); that the outputs then stay is 70_reset_and_hazards.md R75. -/
def Obligations.StepIdlesWithNothingDriven : Prop :=
  ∀ s : State, s.pending = [] → ∃ t, step s = .next t ∧ (∀ p, t.unitView p = s.unitView p) ∧ t.lut = s.lut ∧
    t.pending = []

/-- A step refuses, by name, exactly the drives no port can carry (20_memory.md R23, 30_encoding.md R38; the
refusal, and the bytes of a drive, are the model's choice, DESIGN CHOICE, log 3). -/
def Obligations.StepRefusesWhatNoPortCarries : Prop :=
  ∀ (s : State) (d : Drive) (rest : List Drive), s.pending = d :: rest →
    (d.wf = false ↔ ∃ why, step s = .refused (.undrivable why)) ∧ (d.wf = true ↔ ∃ t, step s = .next t)

/-- The block at power-up: the table holds its contents and every output is the function of the input then present
(70_reset_and_hazards.md R75, R76; which inputs stand there is the model's choice, DESIGN CHOICE, log 5). -/
def Obligations.ResetMeetsTheInvariant : Prop := State.reset.Inv

/-- From every state with the table's contents and every output the function of its own present input, a step that
answers a next state leaves them so: outputs always follow inputs (10_state.md R15, R17, 70_reset_and_hazards.md
R75). -/
def Obligations.StepKeepsTheInvariant : Prop := ∀ s t : State, s.Inv → step s = .next t → t.Inv

/-- Whatever the state and however long the run, if the ports can carry every pending drive, no step stops on a fault
or a refusal, and after `n` steps the first `n` drives are gone. That no operation stops is 42_frame_decoder.md R57 and
60_exceptions.md R67; that a step takes one drive off a queue, and idles past the queue's end, is the model's choice
(DESIGN CHOICE, log 2), as is what bytes a drive may hold (DESIGN CHOICE, log 3), and no rule's. -/
def Obligations.DrivableQueuesNeverStop : Prop :=
  ∀ s : State, s.queueOk → Safety.NeverStops s ∧
    ∀ (n : Nat) (t : State), runSteps n s = .next t → t.pending = s.pending.drop n

/-- Interleaving is immaterial: two queues that put the same drives in the same order on each port, in any interleaving
of the ports, reach the same state (20_memory.md R26). That a run takes the drives one by one off a queue is the
model's choice (DESIGN CHOICE, log 2; DEDUCED, log 12). -/
def Obligations.InterleavingOfUnitsIsImmaterial : Prop :=
  ∀ (s : State) (ds ds' : List Drive), (∀ d ∈ ds, d.wf = true) → (∀ d ∈ ds', d.wf = true) →
    (∀ p : Port, ds.filter (fun d => d.port == p) = ds'.filter (fun d => d.port == p)) →
    ∃ t, runSteps ds.length { s with pending := ds } = .next t ∧
      runSteps ds'.length { s with pending := ds' } = .next t

/-- No hidden state: after a whole queue has run, each unit's ports show what its last drive alone shows from the state
the run began in, and a unit that was not driven shows what it showed (10_state.md R11, R17). The queue, and that an
undriven input stays as it was, are the model's choice (DESIGN CHOICE, log 1, log 2). -/
def Obligations.PortsShowTheLastDriveAlone : Prop :=
  ∀ (s t : State), s.queueOk → runSteps s.pending.length s = .next t → ∀ p : Port,
    ((∀ d ∈ s.pending, d.port ≠ p) → t.unitView p = s.unitView p) ∧
    ∀ (before after : List Drive) (d : Drive) (i : Instr), s.pending = before ++ d :: after → d.port = p →
      (∀ e ∈ after, e.port ≠ p) → decode d = .ok i →
      ∃ u, exec i s = .next u ∧ t.unitView p = u.unitView p

/-- The caller's duty of one transaction in flight: in everything it does that keeps the duty, the event just before a
response is the one command that response answers, and no two commands stand without a response or a failure between
them (20_memory.md R27; the list of events is the model's choice, DESIGN CHOICE, log 14). -/
def Obligations.OneInFlightPairsResponsesWithCommands : Prop :=
  ∀ es : List Safety.CallerEvent, Safety.CallerEvent.oneInFlight false es = true →
    (∀ before after f, es = before ++ .response f :: after → ∃ earlier k, before = earlier ++ [.command k]) ∧
    ∀ before after k, es = before ++ .command k :: after → ∀ k' rest, after ≠ .command k' :: rest
end

