-- ==== Sys2Proof/Laws/Operands.lean ====
section
/-! SUPPORT. Laws/Operands.lean: lanes, packing, the byte XOR, and what each unit's function answers. -/

namespace Sys2Proof.Machine

/-! ### Lanes and packing -/

@[simp] theorem lane_pack_zero (a b c d : Byte) : lane (pack a b c d) 0 = a := by
  ext i h; simp [lane, pack]; grind

@[simp] theorem lane_pack_one (a b c d : Byte) : lane (pack a b c d) 1 = b := by
  ext i h; simp [lane, pack]; grind

@[simp] theorem lane_pack_two (a b c d : Byte) : lane (pack a b c d) 2 = c := by
  ext i h; simp [lane, pack]; grind

@[simp] theorem lane_pack_three (a b c d : Byte) : lane (pack a b c d) 3 = d := by
  ext i h; simp [lane, pack]; grind

/-- A lane of the lane-by-lane XOR of two frames is the XOR of their lanes. -/
@[simp] theorem lane_xor (f m : Frame) (i : Fin 4) : lane (f ^^^ m) i = lane f i ^^^ lane m i := by
  ext j h; simp [lane]

theorem pack_lanes (f : Frame) : pack (lane f 0) (lane f 1) (lane f 2) (lane f 3) = f := by
  refine BitVec.eq_of_getLsbD_eq fun i h => ?_
  simp only [pack, lane, BitVec.getLsbD_append, BitVec.getLsbD_extractLsb']
  grind

/-- A frame is its four lanes. -/
theorem frame_ext (f g : Frame) (h : ∀ i, lane f i = lane g i) : f = g := by
  rw [← pack_lanes f, ← pack_lanes g, h 0, h 1, h 2, h 3]

theorem lane_toNat (f : Frame) (i : Fin 4) : (lane f i).toNat = f.toNat / 2 ^ (24 - 8 * i.val) % 256 := by
  simp [lane, Nat.shiftRight_eq_div_pow]

/-! ### The byte XOR -/

theorem byteXor_bit (a b : Byte) (i : Nat) : (byteXor a b).getLsbD i = (a.getLsbD i ^^ b.getLsbD i) := by
  simp [byteXor]

theorem byteXor_comm (a b : Byte) : byteXor a b = byteXor b a := BitVec.xor_comm a b

theorem byteXor_assoc (a b c : Byte) : byteXor (byteXor a b) c = byteXor a (byteXor b c) := BitVec.xor_assoc a b c

@[simp] theorem byteXor_zero (a : Byte) : byteXor a 0 = a := by simp [byteXor]

@[simp] theorem byteXor_self (a : Byte) : byteXor a a = 0 := by simp [byteXor]

/-! ### The checksum and the magnitude of a packed frame -/

@[simp] theorem calcChecksum_pack (a b c d : Byte) : calcChecksum (pack a b c d) = byteXor (byteXor a b) c := by
  simp [calcChecksum]

@[simp] theorem checksumField_pack (a b c d : Byte) : checksumField (pack a b c d) = d := by simp [checksumField]

@[simp] theorem magx_pack (a b c d : Byte) : magx (pack a b c d) = a ++ b := by simp [magx]

theorem frameOk_iff (f : Frame) : frameOk f = true ↔ calcChecksum f = lane f 3 := by
  simp [frameOk, checksumField]

@[simp] theorem frameOk_pack (a b c d : Byte) : frameOk (pack a b c d) = true ↔ byteXor (byteXor a b) c = d := by
  simp [frameOk]

/-- A command entry is valid by construction. -/
@[simp] theorem frameOk_cmdEntry (op : Byte) : frameOk (cmdEntry op) = true := by simp [cmdEntry, frameOk]

/-- The four lanes XOR to zero exactly in a valid frame. -/
theorem frameOk_iff_xor_zero (f : Frame) :
    frameOk f = true ↔ byteXor (byteXor (byteXor (lane f 0) (lane f 1)) (lane f 2)) (lane f 3) = 0 := by
  simp [frameOk_iff, calcChecksum, byteXor, BitVec.xor_eq_zero_iff]

/-! ### The kind codes -/

@[simp] theorem kindOfCode_kindCode (k : Kind) : kindOfCode (kindCode k) = some k := by cases k <;> rfl

@[simp] theorem kindOfCode_reserved : kindOfCode reservedCode = none := rfl

theorem kindOfCode_eq_some (c : Ksel) (k : Kind) : kindOfCode c = some k ↔ c = kindCode k := by
  cases k <;> revert c <;> decide

theorem kindOfCode_eq_none (c : Ksel) : kindOfCode c = none ↔ c = reservedCode := by
  revert c; decide

/-! ### What each unit's function answers -/

@[simp] theorem encOp_kindCode (t : CmdTable) (k : Kind) : encOp t (kindCode k) = .ok (lutEntry t k) := by
  simp [encOp]

@[simp] theorem encOp_reserved (t : CmdTable) : encOp t reservedCode = .raise .kindError := rfl

theorem encOp_cases (t : CmdTable) (c : Ksel) :
    (∃ k, c = kindCode k ∧ encOp t c = .ok (lutEntry t k)) ∨ (c = reservedCode ∧ encOp t c = .raise .kindError) := by
  rcases h : kindOfCode c with _ | k
  · exact .inr ⟨(kindOfCode_eq_none c).1 h, by simp [encOp, h]⟩
  · exact .inl ⟨k, (kindOfCode_eq_some c k).1 h, by simp [encOp, h]⟩

theorem decOp_of_ok (f : Frame) (h : frameOk f = true) : decOp f = .ok (magx f) := by simp [decOp, h]

theorem decOp_of_not_ok (f : Frame) (h : frameOk f = false) : decOp f = .raise .checksumError := by simp [decOp, h]

theorem decOp_cases (f : Frame) :
    (frameOk f = true ∧ decOp f = .ok (magx f)) ∨ (frameOk f = false ∧ decOp f = .raise .checksumError) := by
  rcases h : frameOk f with _ | _
  · exact .inr ⟨rfl, decOp_of_not_ok f h⟩
  · exact .inl ⟨rfl, decOp_of_ok f h⟩

end Sys2Proof.Machine
end

