-- ==== Sys2Proof/Laws/Decode.lean ====
section
/-! SUPPORT. Laws/Decode.lean: what the decoder answers, and when. -/

namespace Sys2Proof

open Machine

theorem decodeFrame_ok_iff (p : Port) (op : Frame → Instr) (bs : List Byte) (i : Instr) :
    decodeFrame p op bs = .ok i ↔ ∃ b0 b1 b2 b3, bs = [b0, b1, b2, b3] ∧ i = op (pack b0 b1 b2 b3) := by
  unfold decodeFrame
  split
  · simp only [Except.ok.injEq, List.cons.injEq, and_true]
    constructor
    · rintro rfl; exact ⟨_, _, _, _, ⟨rfl, rfl, rfl, rfl⟩, rfl⟩
    · rintro ⟨_, _, _, _, ⟨rfl, rfl, rfl, rfl⟩, rfl⟩; rfl
  · rename_i h
    constructor
    · intro h'; cases h'
    · rintro ⟨b0, b1, b2, b3, rfl, -⟩; exact absurd rfl (h b0 b1 b2 b3)

/-- The selector's byte is read back from the operation it selects. -/
theorem decodeKsel_ok {b : Byte} {i : Instr} (h : decodeKsel b = .ok i) : i.port = .enc ∧ encode i = ⟨.enc, [b]⟩ := by
  unfold decodeKsel at h
  split at h
  · cases h; subst b; exact ⟨rfl, rfl⟩
  split at h
  · cases h; subst b; exact ⟨rfl, rfl⟩
  split at h
  · cases h; subst b; exact ⟨rfl, rfl⟩
  split at h
  · cases h; subst b; exact ⟨rfl, rfl⟩
  · cases h

theorem decodeKsel_isOk (b : Byte) : (∃ i, decodeKsel b = .ok i) ↔ b.toNat < 4 := by
  constructor
  · rintro ⟨i, h⟩
    unfold decodeKsel at h
    split at h
    · subst b; decide
    split at h
    · subst b; decide
    split at h
    · subst b; decide
    split at h
    · subst b; decide
    · cases h
  · intro h
    have four : ∀ b : Byte, b.toNat < 4 → b = 0b00 ∨ b = 0b01 ∨ b = 0b10 ∨ b = 0b11 := by decide
    rcases four b h with rfl | rfl | rfl | rfl <;> exact ⟨_, rfl⟩

/-- A drive decodes only to an operation of its own port's unit. -/
theorem decode_port {d : Drive} {i : Instr} (h : decode d = .ok i) : i.port = d.port := by
  obtain ⟨p, bs⟩ := d
  cases p with
  | enc =>
    simp only [decode] at h
    split at h
    · exact (decodeKsel_ok h).1
    · cases h
  | chk => obtain ⟨_, _, _, _, -, rfl⟩ := (decodeFrame_ok_iff _ _ _ _).1 h; rfl
  | dec => obtain ⟨_, _, _, _, -, rfl⟩ := (decodeFrame_ok_iff _ _ _ _).1 h; rfl

theorem frameBytesWf_iff (bs : List Byte) : frameBytesWf bs = true ↔ ∃ a b c d, bs = [a, b, c, d] := by
  rw [frameBytesWf, beq_iff_eq]
  exact List.length_eq_four

end Sys2Proof
end

