-- ==== Sys2Proof/Laws/State.lean ====
section
/-! SUPPORT. Laws/State.lean: each field after each update of the state. -/

namespace Sys2Proof.Machine

variable (k : Ksel) (f : Frame) (s : State)

section DriveEnc
@[simp] theorem driveEnc_lut : (driveEnc k s).lut = s.lut := rfl
@[simp] theorem driveEnc_encKsel : (driveEnc k s).encKsel = k := rfl
@[simp] theorem driveEnc_encOut : (driveEnc k s).encOut = encOp s.lut k := rfl
@[simp] theorem driveEnc_chkFrame : (driveEnc k s).chkFrame = s.chkFrame := rfl
@[simp] theorem driveEnc_chkCalc : (driveEnc k s).chkCalc = s.chkCalc := rfl
@[simp] theorem driveEnc_chkOk : (driveEnc k s).chkOk = s.chkOk := rfl
@[simp] theorem driveEnc_decFrame : (driveEnc k s).decFrame = s.decFrame := rfl
@[simp] theorem driveEnc_decOut : (driveEnc k s).decOut = s.decOut := rfl
@[simp] theorem driveEnc_pending : (driveEnc k s).pending = s.pending := rfl
@[simp] theorem driveEnc_samples : (driveEnc k s).samples = s.samples + 1 := rfl
end DriveEnc

section DriveChk
@[simp] theorem driveChk_lut : (driveChk f s).lut = s.lut := rfl
@[simp] theorem driveChk_encKsel : (driveChk f s).encKsel = s.encKsel := rfl
@[simp] theorem driveChk_encOut : (driveChk f s).encOut = s.encOut := rfl
@[simp] theorem driveChk_chkFrame : (driveChk f s).chkFrame = f := rfl
@[simp] theorem driveChk_chkCalc : (driveChk f s).chkCalc = calcChecksum f := rfl
@[simp] theorem driveChk_chkOk : (driveChk f s).chkOk = frameOk f := rfl
@[simp] theorem driveChk_decFrame : (driveChk f s).decFrame = s.decFrame := rfl
@[simp] theorem driveChk_decOut : (driveChk f s).decOut = s.decOut := rfl
@[simp] theorem driveChk_pending : (driveChk f s).pending = s.pending := rfl
@[simp] theorem driveChk_samples : (driveChk f s).samples = s.samples + 1 := rfl
end DriveChk

section DriveDec
@[simp] theorem driveDec_lut : (driveDec f s).lut = s.lut := rfl
@[simp] theorem driveDec_encKsel : (driveDec f s).encKsel = s.encKsel := rfl
@[simp] theorem driveDec_encOut : (driveDec f s).encOut = s.encOut := rfl
@[simp] theorem driveDec_chkFrame : (driveDec f s).chkFrame = s.chkFrame := rfl
@[simp] theorem driveDec_chkCalc : (driveDec f s).chkCalc = s.chkCalc := rfl
@[simp] theorem driveDec_chkOk : (driveDec f s).chkOk = s.chkOk := rfl
@[simp] theorem driveDec_decFrame : (driveDec f s).decFrame = f := rfl
@[simp] theorem driveDec_decOut : (driveDec f s).decOut = decOp f := rfl
@[simp] theorem driveDec_pending : (driveDec f s).pending = s.pending := rfl
@[simp] theorem driveDec_samples : (driveDec f s).samples = s.samples + 1 := rfl
end DriveDec

section Idle
@[simp] theorem idle_lut : (idle s).lut = s.lut := rfl
@[simp] theorem idle_encKsel : (idle s).encKsel = s.encKsel := rfl
@[simp] theorem idle_encOut : (idle s).encOut = s.encOut := rfl
@[simp] theorem idle_chkFrame : (idle s).chkFrame = s.chkFrame := rfl
@[simp] theorem idle_chkCalc : (idle s).chkCalc = s.chkCalc := rfl
@[simp] theorem idle_chkOk : (idle s).chkOk = s.chkOk := rfl
@[simp] theorem idle_decFrame : (idle s).decFrame = s.decFrame := rfl
@[simp] theorem idle_decOut : (idle s).decOut = s.decOut := rfl
@[simp] theorem idle_pending : (idle s).pending = s.pending := rfl
@[simp] theorem idle_samples : (idle s).samples = s.samples + 1 := rfl
end Idle

section WithFetchWord
variable (nbits w : Nat)
@[simp] theorem withFetchWord_pending :
    (s.withFetchWord nbits w).pending = tableDrive nbits w :: s.pending := rfl
@[simp] theorem withFetchWord_lut : (s.withFetchWord nbits w).lut = s.lut := rfl
end WithFetchWord

end Sys2Proof.Machine
end

