-- ==== Sys2Proof/Laws/Exec.lean ====
section
/-! SUPPORT. Laws/Exec.lean: everything one operation, and one step, can do. -/

namespace Sys2Proof.Machine

/-- An operation is one drive of its own unit's port, and nothing else. -/
theorem exec_cases (i : Instr) (s : State) :
    (∃ k, i.port = .enc ∧ exec i s = .next (driveEnc k s)) ∨ (∃ f, i = .chk f ∧ exec i s = .next (driveChk f s)) ∨
      (∃ f, i = .dec f ∧ exec i s = .next (driveDec f s)) := by
  cases i with
  | encRv => exact .inl ⟨kindCode .rv, rfl, rfl⟩
  | encFv => exact .inl ⟨kindCode .fv, rfl, rfl⟩
  | encTemp => exact .inl ⟨kindCode .temp, rfl, rfl⟩
  | encReserved => exact .inl ⟨reservedCode, rfl, rfl⟩
  | chk f => exact .inr (.inl ⟨f, rfl, rfl⟩)
  | dec f => exact .inr (.inr ⟨f, rfl, rfl⟩)

/-- The selector an ENC operation drives does not depend on the state. -/
theorem exec_enc (i : Instr) (h : i.port = .enc) : ∃ k, ∀ s, exec i s = .next (driveEnc k s) := by
  cases i with
  | encRv => exact ⟨kindCode .rv, fun _ => rfl⟩
  | encFv => exact ⟨kindCode .fv, fun _ => rfl⟩
  | encTemp => exact ⟨kindCode .temp, fun _ => rfl⟩
  | encReserved => exact ⟨reservedCode, fun _ => rfl⟩
  | chk f => cases h
  | dec f => cases h

theorem fetch_nil {s : State} (h : s.pending = []) : fetch s = none := by simp [fetch, h]

theorem fetch_cons {s : State} {d : Drive} {rest : List Drive} (h : s.pending = d :: rest) :
    fetch s = some (d, { s with pending := rest }) := by simp [fetch, h]

/-- Everything a step that answers a next state can have done. -/
theorem step_next_cases {s t : State} (h : step s = .next t) :
    (s.pending = [] ∧ t = idle s) ∨
      ∃ d rest i, s.pending = d :: rest ∧ decode d = .ok i ∧ exec i { s with pending := rest } = .next t := by
  rcases hp : s.pending with _ | ⟨d, rest⟩
  · simp only [step, fetch_nil hp, Host.Outcome.next.injEq] at h
    exact .inl ⟨rfl, h.symm⟩
  · simp only [step, fetch_cons hp] at h
    split at h
    · exact .inr ⟨d, rest, _, rfl, ‹_›, h⟩
    · cases h

/-! ### Runs -/

@[simp] theorem runSteps_zero (s : State) : runSteps 0 s = .next s := rfl

/-- A run begins with its first step, where that answers a state. -/
theorem coreRun_succ_next (M : Host.Core) {s t : M.State} (h : M.step s = .next t) (n : Nat) :
    M.run (n + 1) s = M.run n t := by
  simp only [Host.Core.run, h]

/-- A run stops at a refusal. -/
theorem coreRun_succ_refused (M : Host.Core) {s : M.State} {r : M.Refusal} (h : M.step s = .refused r) (n : Nat) :
    M.run (n + 1) s = .refused r := by
  simp only [Host.Core.run, h]

theorem runSteps_succ_of_next {s t : State} (h : step s = .next t) (n : Nat) :
    runSteps (n + 1) s = runSteps n t := coreRun_succ_next core h n

/-- A run of one step more that answers a state began with a step that answers one. -/
theorem runSteps_succ_next {n : Nat} {s u : State} (h : runSteps (n + 1) s = .next u) :
    ∃ t, step s = .next t ∧ runSteps n t = .next u := by
  rcases hs : step s with t | r | r
  · exact ⟨t, rfl, (runSteps_succ_of_next hs n).symm.trans h⟩
  · cases r
  · have hr : runSteps (n + 1) s = .refused r := coreRun_succ_refused core hs n
    rw [hr] at h
    cases h

/-! ### What the ports of each unit show after each drive -/

variable (k : Ksel) (f : Frame) (s : State)

@[simp] theorem driveEnc_unitView_enc : (driveEnc k s).unitView .enc = .enc k (encOp s.lut k) := rfl
@[simp] theorem driveEnc_unitView_chk : (driveEnc k s).unitView .chk = s.unitView .chk := rfl
@[simp] theorem driveEnc_unitView_dec : (driveEnc k s).unitView .dec = s.unitView .dec := rfl
@[simp] theorem driveChk_unitView_enc : (driveChk f s).unitView .enc = s.unitView .enc := rfl
@[simp] theorem driveChk_unitView_chk : (driveChk f s).unitView .chk = .chk f (calcChecksum f) (frameOk f) := rfl
@[simp] theorem driveChk_unitView_dec : (driveChk f s).unitView .dec = s.unitView .dec := rfl
@[simp] theorem driveDec_unitView_enc : (driveDec f s).unitView .enc = s.unitView .enc := rfl
@[simp] theorem driveDec_unitView_chk : (driveDec f s).unitView .chk = s.unitView .chk := rfl
@[simp] theorem driveDec_unitView_dec : (driveDec f s).unitView .dec = .dec f (decOp f) := rfl

end Sys2Proof.Machine
end

