-- ==== Sys2Proof/Laws/PerInstr.lean ====
section
/-! SUPPORT. Laws/PerInstr.lean: the facts about every operation as syntax, one lemma for each constructor. -/

namespace Sys2Proof.Laws.EncodesToItsPort

/-- An operation's drive is on its own unit's port, with bytes that port can carry. -/
def Statement (i : Instr) : Prop := (encode i).port = i.port ∧ (encode i).wf = true

theorem encRv : Statement .encRv := ⟨rfl, rfl⟩
theorem encFv : Statement .encFv := ⟨rfl, rfl⟩
theorem encTemp : Statement .encTemp := ⟨rfl, rfl⟩
theorem encReserved : Statement .encReserved := ⟨rfl, rfl⟩
theorem chk (f : Frame) : Statement (.chk f) := ⟨rfl, rfl⟩
theorem dec (f : Frame) : Statement (.dec f) := ⟨rfl, rfl⟩

end Sys2Proof.Laws.EncodesToItsPort
end

