-- ==== Sys2Proof/Tests/Slice0.lean ====
section
/-! SUPPORT. Tests/Slice0.lean: the model against the spec's own vectors (95_test_vectors.md), the words of the
encodings written out, the smoke tests of well-formedness, and a witness for the hypotheses of each statement that has
some. -/

namespace Sys2Proof.Tests

open Sys2Proof.Machine Sys2Proof.Safety

/-- The next state, where there is one. -/
def nextOf : Host.Outcome State Fault Refusal → Option State
  | .next s => some s
  | .fault _ => none
  | .refused _ => none

/-- The state after one operation from power-up. -/
def after (i : Instr) : Option State := nextOf (exec i State.reset)

/-- Power-up with these drives pending. -/
def queued (ds : List Drive) : State := { State.reset with pending := ds }

/-! ### Well-formedness: for each check, bytes it refuses, and bytes it takes -/

theorem test_wf_ksel_two_bytes : Drive.wf ⟨.enc, [0x00, 0x00]⟩ = false := by decide
theorem test_wf_ksel_no_byte : Drive.wf ⟨.enc, []⟩ = false := by decide
theorem test_wf_ksel_three_bits : Drive.wf ⟨.enc, [0b100]⟩ = false := by decide
theorem test_wf_ksel_reserved_code : Drive.wf ⟨.enc, [0b11]⟩ = true := by decide
theorem test_wf_chk_short_frame : Drive.wf ⟨.chk, [0x01, 0x2C, 0x00]⟩ = false := by decide
theorem test_wf_dec_long_frame : Drive.wf ⟨.dec, [0x01, 0x2C, 0x00, 0x2D, 0x00]⟩ = false := by decide
theorem test_wf_dec_frame : Drive.wf ⟨.dec, [0x01, 0x2C, 0x00, 0x2D]⟩ = true := by decide

/-! ### Decoding: words written out bit by bit from 30_encoding.md R30, R31, R33 -/

theorem test_decode_enc_rv : decode ⟨.enc, [0b00000000]⟩ = .ok .encRv := by rfl
theorem test_decode_enc_fv : decode ⟨.enc, [0b00000001]⟩ = .ok .encFv := by rfl
theorem test_decode_enc_temp : decode ⟨.enc, [0b00000010]⟩ = .ok .encTemp := by rfl
theorem test_decode_enc_reserved : decode ⟨.enc, [0b00000011]⟩ = .ok .encReserved := by rfl
theorem test_decode_enc_range : decode ⟨.enc, [0b00000111]⟩ = .error (.kselRange 7) := by rfl
/-- b0 = 0x12, b1 = 0x34, b2 = 0x56, b3 = 0x71 (CHK-11). -/
theorem test_decode_chk : decode ⟨.chk, [0b00010010, 0b00110100, 0b01010110, 0b01110001]⟩ =
    .ok (.chk 0b00010010001101000101011001110001) := by rfl
/-- high 0xFF, low 0x00, reserved 0x00, checksum 0xFF (DEC-8). -/
theorem test_decode_dec : decode ⟨.dec, [0b11111111, 0b00000000, 0b00000000, 0b11111111]⟩ =
    .ok (.dec 0b11111111000000000000000011111111) := by rfl
theorem test_decode_dec_short : decode ⟨.dec, [0x01]⟩ = .error (.frameBytes .dec 1) := by rfl
/-- The table's rows of width 2, and a 32-bit word (log 4). -/
theorem test_table_words : decodeTableWord 8 0 = some .encRv ∧ decodeTableWord 8 1 = some .encFv ∧
    decodeTableWord 8 2 = some .encTemp ∧ decodeTableWord 8 3 = some .encReserved ∧ decodeTableWord 8 4 = none ∧
    decodeTableWord 32 0x12345670 = some (.chk 0x12345670) := by decide

/-! ### The spec's vectors (95_test_vectors.md) -/

/-- ENC-1, V-E. -/
theorem test_enc_rv : (after .encRv).map encFramePort = some 0x09000009 := by decide
/-- ENC-2, V-F. -/
theorem test_enc_fv : (after .encFv).map encFramePort = some 0x01000001 := by decide
/-- ENC-3, V-C. -/
theorem test_enc_temp : (after .encTemp).map encFramePort = some 0x02000002 := by decide
theorem test_enc_temp_status : (after .encTemp).map encStatusPort = some 0b00 := by decide
/-- ENC-4. -/
theorem test_enc_reserved : (after .encReserved).map (fun t => (encStatusPort t, t.encOut)) =
    some (0b11, .raise .kindError) := by decide
/-- CHK-13: the "checksum = opcode" shortcut would accept it. -/
theorem test_chk_shortcut : (after (.chk 0x01050001)).map (fun t => (chkCalcPort t, chkOkPort t)) =
    some (0x04, 0) := by decide
/-- CHK-12. -/
theorem test_chk_valid : (after (.chk 0xABCDEF89)).map (fun t => (chkCalcPort t, chkOkPort t)) =
    some (0x89, 1) := by decide
/-- DEC-22: four different lanes. -/
theorem test_dec_valid : (after (.dec 0xABCDEF89)).map (fun t => (decStatusPort t, decMagPort t)) =
    some (0b00, 0xABCD) := by decide
/-- DEC-11: byte 2 is in the checksum, and the outcome holds no number. -/
theorem test_dec_invalid : (after (.dec 0x00000100)).map (fun t => (decStatusPort t, t.decOut)) =
    some (0b01, .raise .checksumError) := by decide

/-! ### Steps -/

/-- A bare word placed at power-up is what the very next step runs. -/
theorem test_step_runs_fetched_word :
    step (State.reset.withFetchWord 8 2) = exec .encTemp State.reset ∧
      step (State.reset.withFetchWord 32 0x012C002D) = exec (.chk 0x012C002D) State.reset := ⟨rfl, rfl⟩
/-- DEC runs from the queue, on its own port (Scenario A). -/
theorem test_step_dec : (nextOf (step (queued [⟨.dec, [0x01, 0x2C, 0x00, 0x2D]⟩]))).map decMagPort = some 300 := by
  decide
theorem test_step_refuses_short_frame : step (queued [⟨.dec, [0x01]⟩]) =
    .refused (.undrivable (.frameBytes .dec 1)) := by rfl

/-! ### Witnesses: states and operands that meet the hypotheses of each statement -/

/-- EncRv, EncFv, EncTemp, EncoderLooksUp (its inner premise), DecOfEnc, FrameFields, and both parts of the invariant
(ErrorOutcomes, StepKeepsTheInvariant, StatusesAreTheUnitsOwn) at power-up. -/
theorem witness_inv_reset : State.reset.lutIntact ∧ State.reset.settled ∧ State.reset.Inv := by decide

/-- ErrorOutcomesCarryNoNumber, the two error clauses: a state that meets the invariant, with neither port readable. -/
def errorState : State :=
  { State.reset with
    encKsel := 0b11, encOut := .raise .kindError, decFrame := 0x012C00FF, decOut := .raise .checksumError }

theorem witness_error_clauses : errorState.Inv ∧ errorState.mayReadMag = false ∧ errorState.mayTransmit = false := by
  decide

/-- ErrorOutcomesCarryNoNumber, the two OK clauses. -/
theorem witness_ok_clauses : State.reset.Inv ∧ State.reset.mayReadMag = true ∧ State.reset.mayTransmit = true := by
  decide

/-- StepKeepsTheInvariant and StatusesAreTheUnitsOwn: a state that meets them and a step to a next state which ends in
an error. -/
theorem witness_step_to_error : (queued [⟨.enc, [0b11]⟩]).Inv ∧
    (nextOf (step (queued [⟨.enc, [0b11]⟩]))).map encStatusPort = some 0b11 := by decide

/-- ByteXorIsBitwise: the highest bit position, where the bit is set. -/
theorem witness_bit_seven : 7 < 8 ∧ (byteXor 0x80 0x00).getLsbD 7 = true := by decide

/-- ChkOkDependsOnTheLaneXorAlone: two frames that differ in every lane, with one lane XOR. -/
theorem witness_same_lane_xor : laneXor 0x12345671 = laneXor 0x13355770 ∧ laneXor 0x12345671 = 0x01 := by decide

/-- ChkCatchesExactlyTheOddFlips: a valid frame, an error within one byte, one that flips a position in three bytes,
and one that flips a position in two (95_test_vectors.md, Program 3). -/
theorem witness_error_patterns : frameOk 0x12345670 = true ∧
    (lane 0xFF000000 0 ≠ 0x00 ∧ ∀ l', l' ≠ 0 → lane 0xFF000000 l' = 0x00) ∧ flipsAt 0x80808000 7 % 2 = 1 ∧
    ∀ b < 8, flipsAt 0x80800000 b = 0 ∨ flipsAt 0x80800000 b = 2 ∨ flipsAt 0x80800000 b = 4 := by decide

/-- DecChecksThenExtracts: a frame for each clause (Scenarios A and B). -/
theorem witness_dec_clauses :
    (lane 0x012C002D 0 ^^^ lane 0x012C002D 1 ^^^ lane 0x012C002D 2 = lane 0x012C002D 3) ∧
      (lane 0x012C00FF 0 ^^^ lane 0x012C00FF 1 ^^^ lane 0x012C00FF 2 ≠ lane 0x012C00FF 3) := by decide

/-- ReservedByteEntersTheChecksumOnly: a valid frame and another reserved byte. -/
theorem witness_reserved_byte : frameOk (pack 0x01 0x2C 0x00 0x2D) = true ∧ (0xA5 : Byte) ≠ 0x00 := by decide

/-- OperationsAreFunctionsOfTheirInputs: two states that differ on every port and have one table. -/
theorem witness_two_states : State.reset.lut = errorState.lut ∧ State.reset.encOut ≠ errorState.encOut ∧
    Port.chk ≠ Instr.port .encRv := by decide

/-- DifferentUnitsCommute: operations on two units. -/
theorem witness_two_units : Instr.port (.chk 0x00000000) ≠ Instr.port (.dec 0x00000000) := by decide

/-- LanesSitAtTheirBits: the lowest lane's lowest bit and the highest lane's highest. -/
theorem witness_lane_bits : (0 < 8 ∧ (lane 0x00000001 3).getLsbD 0 = true) ∧
    (7 < 8 ∧ (lane 0x80000000 0).getLsbD 7 = true) := by decide

/-- EncodeOfDecodeIsTheDrive: a drive that decodes. -/
theorem witness_decodes : decode ⟨.chk, [0x00, 0x00, 0x00, 0x01]⟩ = .ok (.chk 0x00000001) := by rfl

/-- StepRunsTheDecodedDrive. -/
theorem witness_step_runs : (queued [⟨.enc, [0b01]⟩]).pending = [⟨.enc, [0b01]⟩] ∧
    decode ⟨.enc, [0b01]⟩ = .ok .encFv := ⟨rfl, rfl⟩

/-- StepIdlesWithNothingDriven. -/
theorem witness_idle : State.reset.pending = [] := rfl

/-- StepRefusesWhatNoPortCarries: a drive for each clause. -/
theorem witness_refuses : (queued [⟨.enc, [0b100]⟩]).pending = ⟨.enc, [0b100]⟩ :: [] ∧
    Drive.wf ⟨.enc, [0b100]⟩ = false ∧ (queued [⟨.enc, [0b11]⟩]).pending = ⟨.enc, [0b11]⟩ :: [] ∧
    Drive.wf ⟨.enc, [0b11]⟩ = true := by decide

/-- A queue that drives all three ports. -/
def threePorts : List Drive :=
  [⟨.enc, [0b10]⟩, ⟨.chk, [0x02, 0x00, 0x00, 0x02]⟩, ⟨.dec, [0x00, 0x64, 0x00, 0x64]⟩]

/-- NoRunWritesTheCommandTable and DrivableQueuesNeverStop: a queue with drives, and a run of it that answers a state. -/
theorem witness_queue : (queued threePorts).queueOk ∧
    ∃ t, runSteps 3 (queued threePorts) = .next t ∧ t.pending = [] ∧ t.decOut = .ok 100 :=
  ⟨by decide, _, rfl, rfl, rfl⟩

/-- InterleavingOfUnitsIsImmaterial: two different queues with the same drives on each port. -/
theorem witness_interleavings : (∀ d ∈ threePorts, d.wf = true) ∧ (∀ d ∈ threePorts.reverse, d.wf = true) ∧
    threePorts ≠ threePorts.reverse ∧
    (threePorts.filter (fun d => d.port == .enc) = threePorts.reverse.filter (fun d => d.port == .enc) ∧
      threePorts.filter (fun d => d.port == .chk) = threePorts.reverse.filter (fun d => d.port == .chk) ∧
      threePorts.filter (fun d => d.port == .dec) = threePorts.reverse.filter (fun d => d.port == .dec)) := by decide

/-- PortsShowTheLastDriveAlone: both clauses, DEC not driven, and ENC's last drive with drives before and after it. -/
theorem witness_last_drive :
    let s := queued [⟨.enc, [0b00]⟩, ⟨.enc, [0b10]⟩, ⟨.chk, [0x00, 0x00, 0x00, 0x00]⟩]
    s.queueOk ∧ (∃ t, runSteps s.pending.length s = .next t) ∧ (∀ d ∈ s.pending, d.port ≠ .dec) ∧
      s.pending = [⟨.enc, [0b00]⟩] ++ ⟨.enc, [0b10]⟩ :: [⟨.chk, [0x00, 0x00, 0x00, 0x00]⟩] ∧
      (∀ e ∈ [(⟨.chk, [0x00, 0x00, 0x00, 0x00]⟩ : Drive)], e.port ≠ .enc) ∧
      decode ⟨.enc, [0b10]⟩ = .ok .encTemp :=
  ⟨by decide, ⟨_, rfl⟩, by decide, rfl, by decide, rfl⟩

/-- OneInFlightPairsResponsesWithCommands: a failed transaction and then one that is answered; and a list that breaks
the duty. -/
theorem witness_one_in_flight :
    CallerEvent.oneInFlight false [.command .rv, .failure, .command .fv, .response 0x012C002D] = true ∧
      CallerEvent.oneInFlight false [.command .rv, .command .fv, .response 0x012C002D] = false := by decide

end Sys2Proof.Tests
end

/-! Each operation completes, writes its own unit's ports alone, and shows there a function of its own input and the
table (00_scope.md R9). -/

namespace Sys2Proof.Machine

/-- No operation stops the block (60_exceptions.md R67). -/
theorem exec_completes (i : Instr) (s : State) : ∃ t, exec i s = .next t := by
  rcases exec_cases i s with ⟨k, -, h⟩ | ⟨f, -, h⟩ | ⟨f, -, h⟩
  · exact ⟨driveEnc k s, h⟩
  · exact ⟨driveChk f s, h⟩
  · exact ⟨driveDec f s, h⟩

section Frame

variable {i : Instr} {s t : State}

/-- Neither the table nor the caller's queue is an operation's to write. -/
theorem exec_keeps_lut_and_pending (h : exec i s = .next t) : t.lut = s.lut ∧ t.pending = s.pending := by
  rcases exec_cases i s with ⟨k, -, hd⟩ | ⟨f, -, hd⟩ | ⟨f, -, hd⟩
  · cases h.symm.trans hd; exact ⟨driveEnc_lut k s, driveEnc_pending k s⟩
  · cases h.symm.trans hd; exact ⟨driveChk_lut f s, driveChk_pending f s⟩
  · cases h.symm.trans hd; exact ⟨driveDec_lut f s, driveDec_pending f s⟩

theorem exec_keeps_other_units (h : exec i s = .next t) {p : Port} (hp : p ≠ i.port) :
    t.unitView p = s.unitView p := by
  rcases exec_cases i s with ⟨k, hport, hd⟩ | ⟨f, rfl, hd⟩ | ⟨f, rfl, hd⟩
  · cases h.symm.trans hd
    rw [hport] at hp
    cases p with
    | enc => exact absurd rfl hp
    | chk => exact driveEnc_unitView_chk k s
    | dec => exact driveEnc_unitView_dec k s
  · cases h.symm.trans hd
    cases p with
    | enc => exact driveChk_unitView_enc f s
    | chk => exact absurd rfl hp
    | dec => exact driveChk_unitView_dec f s
  · cases h.symm.trans hd
    cases p with
    | enc => exact driveDec_unitView_enc f s
    | chk => exact driveDec_unitView_chk f s
    | dec => exact absurd rfl hp

end Frame

/-- What an operation shows on its own unit depends on the state through the table alone, which only ENC reads. -/
theorem exec_own_view_eq_of_lut_eq {i : Instr} {s s' t t' : State} (hlut : s.lut = s'.lut)
    (h : exec i s = .next t) (h' : exec i s' = .next t') : t.unitView i.port = t'.unitView i.port := by
  rcases exec_cases i s with ⟨-, hport, -⟩ | ⟨f, rfl, -⟩ | ⟨f, rfl, -⟩
  · obtain ⟨k, hk⟩ := exec_enc i hport
    cases h.symm.trans (hk s)
    cases h'.symm.trans (hk s')
    rw [hport, driveEnc_unitView_enc, driveEnc_unitView_enc, hlut]
  · cases h; cases h'
    exact (driveChk_unitView_chk f s).trans (driveChk_unitView_chk f s').symm
  · cases h; cases h'
    exact (driveDec_unitView_dec f s).trans (driveDec_unitView_dec f s').symm

/-- Settles O19: completion, the own unit's view and the frame are a lemma each. -/
theorem operationsAreFunctionsOfTheirInputs : Obligations.OperationsAreFunctionsOfTheirInputs := by
  intro i s s' hlut
  obtain ⟨t, ht⟩ := exec_completes i s
  obtain ⟨t', ht'⟩ := exec_completes i s'
  obtain ⟨hl, hq⟩ := exec_keeps_lut_and_pending ht
  exact ⟨t, t', ht, ht', exec_own_view_eq_of_lut_eq hlut ht ht', fun _ => exec_keeps_other_units ht, hl, hq⟩

end Sys2Proof.Machine

/-! The block's state along steps and runs: every output follows its own unit's present input, the table is never
written, and no drive but a unit's last leaves a trace on its ports (10_state.md R11, R15, R17). -/

namespace Sys2Proof.Machine

/-! ### The invariant -/

section Invariant

variable {s t : State} (h : s.Inv)
include h

theorem driveEnc_inv (k : Ksel) : (driveEnc k s).Inv := by
  obtain ⟨hlut, -, hcalc, hok, hdec⟩ := h
  exact ⟨hlut, rfl, hcalc, hok, hdec⟩

theorem driveChk_inv (f : Frame) : (driveChk f s).Inv := by
  obtain ⟨hlut, henc, -, -, hdec⟩ := h
  exact ⟨hlut, henc, rfl, rfl, hdec⟩

theorem driveDec_inv (f : Frame) : (driveDec f s).Inv := by
  obtain ⟨hlut, henc, hcalc, hok, -⟩ := h
  exact ⟨hlut, henc, hcalc, hok, rfl⟩

theorem exec_keeps_inv {i : Instr} (he : exec i s = .next t) : t.Inv := by
  rcases exec_cases i s with ⟨k, -, hd⟩ | ⟨f, -, hd⟩ | ⟨f, -, hd⟩
  · cases he.symm.trans hd; exact driveEnc_inv h k
  · cases he.symm.trans hd; exact driveChk_inv h f
  · cases he.symm.trans hd; exact driveDec_inv h f

/-- The invariant does not speak of the queue, so it holds of the state an operation starts in. -/
theorem inv_with_pending (ds : List Drive) : State.Inv { s with pending := ds } := h

theorem step_keeps_inv (hs : step s = .next t) : t.Inv := by
  rcases step_next_cases hs with ⟨-, rfl⟩ | ⟨_, rest, _, -, -, he⟩
  · exact h
  · exact exec_keeps_inv (inv_with_pending h rest) he

end Invariant

/-- Settles O34: each drive sets its own unit's outcome to the function of the input it drives. -/
theorem stepKeepsTheInvariant : Obligations.StepKeepsTheInvariant := fun _ _ => step_keeps_inv

/-! ### Single steps -/

@[simp] theorem idle_unitView (s : State) (p : Port) : (idle s).unitView p = s.unitView p := rfl

@[simp] theorem unitView_with_pending (s : State) (ds : List Drive) (p : Port) :
    State.unitView { s with pending := ds } p = s.unitView p := rfl

theorem step_of_pending_nil {s : State} (hq : s.pending = []) : step s = .next (idle s) := by
  simp only [step, fetch_nil hq]

theorem step_of_decode {s : State} {d : Drive} {rest : List Drive} {i : Instr} (hq : s.pending = d :: rest)
    (hd : decode d = .ok i) : step s = exec i { s with pending := rest } := by
  simp only [step, fetch_cons hq, hd]

/-- A step that answers a next state from a queue with a drive ran the operation of that drive. -/
theorem step_next_of_pending_cons {s t : State} {d : Drive} {rest : List Drive} (hq : s.pending = d :: rest)
    (hs : step s = .next t) : ∃ i, decode d = .ok i ∧ exec i { s with pending := rest } = .next t := by
  rcases step_next_cases hs with ⟨hnil, -⟩ | ⟨_, _, i, hq', hd, he⟩
  · cases hq.symm.trans hnil
  · cases hq.symm.trans hq'
    exact ⟨i, hd, he⟩

theorem step_keeps_lut {s t : State} (hs : step s = .next t) : t.lut = s.lut := by
  rcases step_next_cases hs with ⟨-, rfl⟩ | ⟨_, _, _, -, -, he⟩
  · exact idle_lut s
  · exact (exec_keeps_lut_and_pending he).1

section Drive

variable {s t : State} {d : Drive} {rest : List Drive} (hq : s.pending = d :: rest) (hs : step s = .next t)
include hq hs

theorem step_pending_of_cons : t.pending = rest := by
  obtain ⟨i, -, he⟩ := step_next_of_pending_cons hq hs
  exact (exec_keeps_lut_and_pending he).2

theorem step_keeps_other_units {p : Port} (hp : d.port ≠ p) : t.unitView p = s.unitView p := by
  obtain ⟨i, hd, he⟩ := step_next_of_pending_cons hq hs
  have hpi : p ≠ i.port := decode_port hd ▸ hp.symm
  exact exec_keeps_other_units he hpi

/-- A step shows on the driven unit what the drive's operation alone shows: the queue is no operation's to read. -/
theorem step_own_view {i : Instr} {u : State} (hd : decode d = .ok i) (hu : exec i s = .next u) :
    t.unitView i.port = u.unitView i.port := by
  have he : exec i { s with pending := rest } = .next t := (step_of_decode hq hd).symm.trans hs
  have hlut : State.lut { s with pending := rest } = s.lut := rfl
  exact exec_own_view_eq_of_lut_eq hlut he hu

end Drive

/-- Settles O30. -/
theorem stepRunsTheDecodedDrive : Obligations.StepRunsTheDecodedDrive := fun _ _ _ _ => step_of_decode

/-- Settles O31: such a step is `idle`, which counts the step and leaves the ports, the table and the queue alone. -/
theorem stepIdlesWithNothingDriven : Obligations.StepIdlesWithNothingDriven :=
  fun s hq => ⟨idle s, step_of_pending_nil hq, idle_unitView s, idle_lut s, (idle_pending s).trans hq⟩

/-! ### Runs -/

theorem runSteps_keeps_lut {n : Nat} {s t : State} (hr : runSteps n s = .next t) : t.lut = s.lut := by
  induction n generalizing s with
  | zero => cases hr; rfl
  | succ n ih =>
    obtain ⟨s', hs, hr'⟩ := runSteps_succ_next hr
    exact (ih hr').trans (step_keeps_lut hs)

/-- Settles O7, by induction on the number of steps. -/
theorem noRunWritesTheCommandTable : Obligations.NoRunWritesTheCommandTable :=
  ⟨rfl, fun _ _ _ => runSteps_keeps_lut⟩

/-- A run of a whole queue leaves the units it does not drive alone. -/
theorem runSteps_keeps_undriven_unit {p : Port} {ds : List Drive} (hp : ∀ d ∈ ds, d.port ≠ p) {s t : State}
    (hq : s.pending = ds) (hr : runSteps ds.length s = .next t) : t.unitView p = s.unitView p := by
  induction ds generalizing s with
  | nil => cases hr; rfl
  | cons d rest ih =>
    obtain ⟨hd, hrest⟩ := List.forall_mem_cons.1 hp
    obtain ⟨s', hs, hr'⟩ := runSteps_succ_next hr
    exact (ih hrest (step_pending_of_cons hq hs) hr').trans (step_keeps_other_units hq hs hd)

/-- By induction on the drives before the unit's last one: they leave the table, all that the last one reads, as it
was, and the drives after it are on other units. -/
theorem runSteps_view_of_last_drive {d : Drive} {i : Instr} {before after : List Drive} (hd : decode d = .ok i)
    (hafter : ∀ e ∈ after, e.port ≠ i.port) {s t u : State} (hq : s.pending = before ++ d :: after)
    (hr : runSteps (before ++ d :: after).length s = .next t) (hu : exec i s = .next u) :
    t.unitView i.port = u.unitView i.port := by
  induction before generalizing s u with
  | nil =>
    obtain ⟨s', hs, hr'⟩ := runSteps_succ_next hr
    calc t.unitView i.port
      _ = s'.unitView i.port := runSteps_keeps_undriven_unit hafter (step_pending_of_cons hq hs) hr'
      _ = u.unitView i.port := step_own_view hq hs hd hu
  | cons e before ih =>
    obtain ⟨s', hs, hr'⟩ := runSteps_succ_next hr
    obtain ⟨u', hu'⟩ := exec_completes i s'
    calc t.unitView i.port
      _ = u'.unitView i.port := ih (step_pending_of_cons hq hs) hr' hu'
      _ = u.unitView i.port := exec_own_view_eq_of_lut_eq (step_keeps_lut hs) hu' hu

/-- Settles O37: the two clauses are a lemma each. -/
theorem portsShowTheLastDriveAlone : Obligations.PortsShowTheLastDriveAlone := by
  intro s t _ hr p
  refine ⟨fun hp => runSteps_keeps_undriven_unit hp rfl hr, fun before after d i hq hp hafter hd => ?_⟩
  obtain ⟨u, hu⟩ := exec_completes i s
  obtain rfl : i.port = p := (decode_port hd).trans hp
  exact ⟨u, hu, runSteps_view_of_last_drive hd hafter hq (hq ▸ hr) hu⟩

end Sys2Proof.Machine

/-! Which drives a step takes, and the units' independence: a drive is refused exactly when its port cannot carry its
bytes, and the order of drives on different ports leaves no trace (20_memory.md R20, R23, R25, R26). -/

namespace Sys2Proof.Machine

/-! ### Which drives decode -/

theorem kselBytesWf_iff_decode (bs : List Byte) : kselBytesWf bs = true ↔ ∃ i, decode ⟨.enc, bs⟩ = .ok i := by
  match bs with
  | [] => simp [kselBytesWf, decode]
  | [b] => simpa [kselBytesWf, decode] using (decodeKsel_isOk b).symm
  | _ :: _ :: _ => simp [kselBytesWf, decode]

theorem frameBytesWf_iff_decodeFrame (p : Port) (op : Frame → Instr) (bs : List Byte) :
    frameBytesWf bs = true ↔ ∃ i, decodeFrame p op bs = .ok i := by
  rw [frameBytesWf_iff]
  constructor
  · rintro ⟨a, b, c, d, rfl⟩
    exact ⟨op (pack a b c d), rfl⟩
  · rintro ⟨i, h⟩
    obtain ⟨a, b, c, d, hbs, -⟩ := (decodeFrame_ok_iff p op bs i).1 h
    exact ⟨a, b, c, d, hbs⟩

/-- A drive fits its port exactly when it stands for an operation. -/
theorem wf_iff_decode (d : Drive) : d.wf = true ↔ ∃ i, decode d = .ok i := by
  obtain ⟨p, bs⟩ := d
  cases p with
  | enc => exact kselBytesWf_iff_decode bs
  | chk => exact frameBytesWf_iff_decodeFrame .chk .chk bs
  | dec => exact frameBytesWf_iff_decodeFrame .dec .dec bs

theorem step_of_decode_error {s : State} {d : Drive} {rest : List Drive} {why : Reject}
    (hq : s.pending = d :: rest) (hd : decode d = .error why) : step s = .refused (.undrivable why) := by
  simp only [step, fetch_cons hq, hd]

/-- Settles O32: a drive decodes exactly when it is well formed, and then its operation completes. -/
theorem stepRefusesWhatNoPortCarries : Obligations.StepRefusesWhatNoPortCarries := by
  intro s d rest hq
  rw [← Bool.not_eq_true, wf_iff_decode]
  rcases hd : decode d with why | i
  · have hs := step_of_decode_error hq hd
    simp [hs]
  · obtain ⟨t, ht⟩ := exec_completes i { s with pending := rest }
    have hs := (step_of_decode hq hd).trans ht
    simp [hs]

/-- Settles O25. -/
theorem lanesSitAtTheirBits : Obligations.LanesSitAtTheirBits := by
  refine ⟨fun f i j hj => ?_, fun b0 b1 b2 b3 => ?_, by decide⟩
  · simp [lane, hj]
  · simp [laneBytes]

/-! ### Operations of different units, and of one unit twice -/

/-- A state is its table, its units' views, the caller's queue and the step count. -/
theorem state_ext {s t : State} (hlut : s.lut = t.lut) (hview : ∀ p, s.unitView p = t.unitView p)
    (hpending : s.pending = t.pending) (hsamples : s.samples = t.samples) : s = t := by
  have henc := hview .enc
  have hchk := hview .chk
  have hdec := hview .dec
  cases s
  cases t
  simp_all [State.unitView]

theorem exec_samples {i : Instr} {s t : State} (h : exec i s = .next t) : t.samples = s.samples + 1 := by
  rcases exec_cases i s with ⟨k, -, hd⟩ | ⟨f, -, hd⟩ | ⟨f, -, hd⟩
  · cases h.symm.trans hd; exact driveEnc_samples k s
  · cases h.symm.trans hd; exact driveChk_samples f s
  · cases h.symm.trans hd; exact driveDec_samples f s

/-- In either order, a unit that `j` does not drive shows what `i` alone leaves there. -/
theorem exec_exec_unitView {i j : Instr} {s a b t t' : State} (ha : exec i s = .next a) (ht : exec j a = .next t)
    (hb : exec j s = .next b) (ht' : exec i b = .next t') {p : Port} (hp : p ≠ j.port) :
    t.unitView p = t'.unitView p := by
  rw [exec_keeps_other_units ht hp]
  by_cases hpi : p = i.port
  · subst hpi
    exact exec_own_view_eq_of_lut_eq (exec_keeps_lut_and_pending hb).1.symm ha ht'
  · rw [exec_keeps_other_units ha hpi, exec_keeps_other_units ht' hpi, exec_keeps_other_units hb hp]

theorem exec_comm {i j : Instr} (hij : i.port ≠ j.port) {s a b t t' : State} (ha : exec i s = .next a)
    (ht : exec j a = .next t) (hb : exec j s = .next b) (ht' : exec i b = .next t') : t = t' := by
  obtain ⟨hal, haq⟩ := exec_keeps_lut_and_pending ha
  obtain ⟨htl, htq⟩ := exec_keeps_lut_and_pending ht
  obtain ⟨hbl, hbq⟩ := exec_keeps_lut_and_pending hb
  obtain ⟨htl', htq'⟩ := exec_keeps_lut_and_pending ht'
  refine state_ext (by rw [htl, hal, htl', hbl]) (fun p => ?_) (by rw [htq, haq, htq', hbq]) ?_
  · by_cases hp : p = j.port
    · have hpi : p ≠ i.port := hp ▸ hij.symm
      exact (exec_exec_unitView hb ht' ha ht hpi).symm
    · exact exec_exec_unitView ha ht hb ht' hp
  · rw [exec_samples ht, exec_samples ha, exec_samples ht', exec_samples hb]

/-- Settles O20: `exec_comm`, since every operation completes. -/
theorem differentUnitsCommute : Obligations.DifferentUnitsCommute := by
  intro i j s hij
  obtain ⟨a, ha⟩ := exec_completes i s
  obtain ⟨t, ht⟩ := exec_completes j a
  obtain ⟨b, hb⟩ := exec_completes j s
  obtain ⟨t', ht'⟩ := exec_completes i b
  exact ⟨a, b, t, ha, ht, hb, exec_comm hij ha ht hb ht' ▸ ht'⟩

/-- Settles O22: the own unit's view depends on the table alone, which the first run leaves as it was. -/
theorem operationsAreIdempotent : Obligations.OperationsAreIdempotent := by
  intro i s
  obtain ⟨t, ht⟩ := exec_completes i s
  obtain ⟨u, hu⟩ := exec_completes i t
  refine ⟨t, u, ht, hu, fun p => ?_⟩
  by_cases hp : p = i.port
  · subst hp
    exact exec_own_view_eq_of_lut_eq (exec_keeps_lut_and_pending ht).1 hu ht
  · exact exec_keeps_other_units hu hp

/-! ### Interleavings -/

theorem step_samples {s t : State} (hs : step s = .next t) : t.samples = s.samples + 1 := by
  rcases step_next_cases hs with ⟨-, rfl⟩ | ⟨_, _, _, -, -, he⟩
  · exact idle_samples s
  · exact (exec_samples he :)

theorem runSteps_samples {n : Nat} {s t : State} (hr : runSteps n s = .next t) : t.samples = s.samples + n := by
  induction n generalizing s with
  | zero => cases hr; rfl
  | succ n ih =>
    obtain ⟨s', hs, hr'⟩ := runSteps_succ_next hr
    rw [ih hr', step_samples hs]
    omega

/-- A step of a drivable queue answers a next state, with the queue's first drive gone. -/
theorem step_of_queueOk {s : State} (h : s.queueOk) : ∃ t, step s = .next t ∧ t.pending = s.pending.tail := by
  rcases hq : s.pending with _ | ⟨d, rest⟩
  · exact ⟨idle s, step_of_pending_nil hq, hq⟩
  · have hd : d.wf = true := h d (hq ▸ List.mem_cons_self)
    obtain ⟨t, hs⟩ := (stepRefusesWhatNoPortCarries s d rest hq).2.1 hd
    exact ⟨t, hs, step_pending_of_cons hq hs⟩

theorem runSteps_of_queueOk (n : Nat) {s : State} (h : s.queueOk) :
    ∃ t, runSteps n s = .next t ∧ t.pending = s.pending.drop n := by
  induction n generalizing s with
  | zero => exact ⟨s, rfl, rfl⟩
  | succ n ih =>
    obtain ⟨s', hs, hq⟩ := step_of_queueOk h
    have h' : s'.queueOk := fun d hd => h d (List.mem_of_mem_tail (hq ▸ hd))
    obtain ⟨t, hr, ht⟩ := ih h'
    exact ⟨t, (runSteps_succ_of_next hs n).trans hr, by rw [ht, hq, List.drop_tail]⟩

/-- The drives of a queue that are on one port, in order. -/
def drivesOn (p : Port) (ds : List Drive) : List Drive := ds.filter (fun d => d.port == p)

theorem drivesOn_eq_nil_iff {p : Port} {ds : List Drive} : drivesOn p ds = [] ↔ ∀ d ∈ ds, d.port ≠ p := by
  simp [drivesOn]

/-- The last drive on a port, found in the whole queue. -/
theorem exists_last_drive {p : Port} {ds earlier : List Drive} {d : Drive} (h : drivesOn p ds = earlier ++ [d]) :
    d.port = p ∧ ∃ before after, ds = before ++ d :: after ∧ ∀ e ∈ after, e.port ≠ p := by
  obtain ⟨l₁, l₂, rfl, -, h₂⟩ := List.filter_eq_append_iff.1 h
  obtain ⟨l₃, after, rfl, -, hd, hafter⟩ := List.filter_eq_cons_iff.1 h₂
  exact ⟨beq_iff_eq.1 hd, l₁ ++ l₃, after, (List.append_assoc ..).symm, drivesOn_eq_nil_iff.1 hafter⟩

theorem length_eq_sum_drivesOn (ds : List Drive) :
    ds.length = (drivesOn .enc ds).length + (drivesOn .chk ds).length + (drivesOn .dec ds).length := by
  induction ds with
  | nil => rfl
  | cons d ds ih =>
    rcases hp : d.port with _ | _ | _ <;> simp [drivesOn, hp] at ih ⊢ <;> omega

section Interleaving

variable {s t t' : State} {ds ds' : List Drive} (hwf : ∀ d ∈ ds, d.wf = true) (hwf' : ∀ d ∈ ds', d.wf = true)
  (hr : runSteps ds.length { s with pending := ds } = .next t)
  (hr' : runSteps ds'.length { s with pending := ds' } = .next t')
include hwf hwf' hr hr'

/-- What a unit shows after a whole queue depends only on the drives on its own port: on the last of them, or, with
none, on the state the run began in. -/
theorem unitView_eq_of_drivesOn_eq {p : Port} (hp : drivesOn p ds = drivesOn p ds') :
    t.unitView p = t'.unitView p := by
  obtain ⟨hnone, hlast⟩ := portsShowTheLastDriveAlone { s with pending := ds } t hwf hr p
  obtain ⟨hnone', hlast'⟩ := portsShowTheLastDriveAlone { s with pending := ds' } t' hwf' hr' p
  rcases List.eq_nil_or_concat' (drivesOn p ds) with hnil | ⟨earlier, d, hcat⟩
  · rw [hnone (drivesOn_eq_nil_iff.1 hnil), hnone' (drivesOn_eq_nil_iff.1 (hp ▸ hnil))]
    rfl
  · obtain ⟨hdp, before, after, hds, hafter⟩ := exists_last_drive hcat
    obtain ⟨-, before', after', hds', hafter'⟩ := exists_last_drive (hp ▸ hcat)
    have hd : d ∈ ds := hds ▸ List.mem_append_right _ List.mem_cons_self
    obtain ⟨i, hi⟩ := (wf_iff_decode d).1 (hwf d hd)
    obtain ⟨u, hu, htu⟩ := hlast before after d i hds hdp hafter hi
    obtain ⟨u', hu', htu'⟩ := hlast' before' after' d i hds' hdp hafter' hi
    obtain rfl : i.port = p := (decode_port hi).trans hdp
    have hlut : State.lut { s with pending := ds } = State.lut { s with pending := ds' } := rfl
    calc t.unitView i.port
      _ = u.unitView i.port := htu
      _ = u'.unitView i.port := exec_own_view_eq_of_lut_eq hlut hu hu'
      _ = t'.unitView i.port := htu'.symm

end Interleaving

/-- Settles O36: both runs complete, and their last states agree in the table, the views, the empty queue and the step
count. -/
theorem interleavingOfUnitsIsImmaterial : Obligations.InterleavingOfUnitsIsImmaterial := by
  intro s ds ds' hwf hwf' hports
  obtain ⟨t, hr, hq⟩ := runSteps_of_queueOk ds.length (s := { s with pending := ds }) hwf
  obtain ⟨t', hr', hq'⟩ := runSteps_of_queueOk ds'.length (s := { s with pending := ds' }) hwf'
  have hdrives : ∀ p, drivesOn p ds = drivesOn p ds' := hports
  have hlen : ds.length = ds'.length := by
    rw [length_eq_sum_drivesOn ds, length_eq_sum_drivesOn ds', hdrives, hdrives, hdrives]
  have heq : t = t' := by
    refine state_ext ?_ (fun p => unitView_eq_of_drivesOn_eq hwf hwf' hr hr' (hdrives p)) ?_ ?_
    · rw [runSteps_keeps_lut hr, runSteps_keeps_lut hr']
    · rw [hq, hq', List.drop_length, List.drop_length]
    · rw [runSteps_samples hr, runSteps_samples hr', hlen]
  exact ⟨t, hr, heq ▸ hr'⟩

end Sys2Proof.Machine

/-! The caller's duty of one transaction in flight (20_memory.md R27). -/

namespace Sys2Proof.Safety

/-- After each event a command is waiting only if that event was the command. -/
theorem oneInFlight_of_cons {w : Bool} {e : CallerEvent} {es : List CallerEvent}
    (h : CallerEvent.oneInFlight w (e :: es) = true) :
    ∃ w', CallerEvent.oneInFlight w' es = true ∧ (w' = true → ∃ k, e = .command k) := by
  cases e with
  | command k => exact ⟨true, (Bool.and_eq_true_iff.1 h).2, fun _ => ⟨k, rfl⟩⟩
  | response f => exact ⟨false, (Bool.and_eq_true_iff.1 h).2, nofun⟩
  | failure => exact ⟨false, h, nofun⟩

/-- The rest of a list keeps the duty too, with a command waiting only if the event just before it was one. -/
theorem oneInFlight_of_append {w : Bool} {before after : List CallerEvent}
    (h : CallerEvent.oneInFlight w (before ++ after) = true) :
    ∃ w', CallerEvent.oneInFlight w' after = true ∧
      (w' = true → (before = [] ∧ w = true) ∨ ∃ earlier k, before = earlier ++ [.command k]) := by
  induction before generalizing w with
  | nil => exact ⟨w, h, fun hw => .inl ⟨rfl, hw⟩⟩
  | cons e es ih =>
    obtain ⟨w₁, h₁, he⟩ := oneInFlight_of_cons h
    obtain ⟨w', h', hes⟩ := ih h₁
    refine ⟨w', h', fun hw => .inr ?_⟩
    rcases hes hw with ⟨rfl, hw₁⟩ | ⟨earlier, k, rfl⟩
    · obtain ⟨k, rfl⟩ := he hw₁
      exact ⟨[], k, rfl⟩
    · exact ⟨e :: earlier, k, rfl⟩

/-- Settles O38: a response needs a waiting command, which only the event just before it can be. -/
theorem oneInFlightPairsResponsesWithCommands : Obligations.OneInFlightPairsResponsesWithCommands := by
  intro es h
  refine ⟨fun before after f hes => ?_, fun before after k hes k' rest hafter => ?_⟩
  · obtain ⟨w, hw, hbefore⟩ := oneInFlight_of_append (hes ▸ h)
    rcases hbefore (Bool.and_eq_true_iff.1 hw).1 with ⟨-, hidle⟩ | hcommand
    · cases hidle
    · exact hcommand
  · subst hafter
    obtain ⟨w, hw, -⟩ := oneInFlight_of_append (hes ▸ h)
    simp [CallerEvent.oneInFlight] at hw

end Sys2Proof.Safety

/-! The encodings of operations, frames and statuses: an operation and its drive determine each other, a frame's fields
are its bits, and a status is the code of its own unit's outcome (30_encoding.md). -/

namespace Sys2Proof.Machine

/-! ### Operations and their drives -/

@[simp] theorem laneBytes_pack (a b c d : Byte) : laneBytes (pack a b c d) = [a, b, c, d] := by
  simp [laneBytes]

theorem decodeFrame_laneBytes (p : Port) (op : Frame → Instr) (f : Frame) :
    decodeFrame p op (laneBytes f) = .ok (op f) :=
  congrArg (fun g => Except.ok (op g)) (pack_lanes f)

/-- Settles O28: the KSEL rows evaluate, and a frame is the packing of its lanes. -/
theorem decodeOfEncodeIsTheOperation : Obligations.DecodeOfEncodeIsTheOperation := by
  intro i
  cases i with
  | encRv => rfl
  | encFv => rfl
  | encTemp => rfl
  | encReserved => rfl
  | chk f => exact decodeFrame_laneBytes .chk .chk f
  | dec f => exact decodeFrame_laneBytes .dec .dec f

/-- No two drives stand for one operation. -/
theorem encode_of_decode {d : Drive} {i : Instr} (h : decode d = .ok i) : encode i = d := by
  obtain ⟨p, bs⟩ := d
  cases p with
  | enc =>
    simp only [decode] at h
    split at h
    · exact (decodeKsel_ok h).2
    · cases h
  | chk =>
    obtain ⟨b0, b1, b2, b3, rfl, rfl⟩ := (decodeFrame_ok_iff _ _ _ _).1 h
    exact congrArg (Drive.mk .chk) (laneBytes_pack b0 b1 b2 b3)
  | dec =>
    obtain ⟨b0, b1, b2, b3, rfl, rfl⟩ := (decodeFrame_ok_iff _ _ _ _).1 h
    exact congrArg (Drive.mk .dec) (laneBytes_pack b0 b1 b2 b3)

/-- Settles O29. -/
theorem encodeOfDecodeIsTheDrive : Obligations.EncodeOfDecodeIsTheDrive :=
  ⟨wf_iff_decode, fun _ _ => encode_of_decode⟩

/-- Settles O27: the selector's four bytes are the drives of their operations, and the rest evaluates. -/
theorem writtenWordsDecode : Obligations.WrittenWordsDecode :=
  ⟨decodeOfEncodeIsTheOperation .encRv, decodeOfEncodeIsTheOperation .encFv, decodeOfEncodeIsTheOperation .encTemp,
    decodeOfEncodeIsTheOperation .encReserved, rfl, rfl, rfl, rfl⟩

/-! ### Status codes -/

theorem errCode_ne_zero (e : Err) : errCode e ≠ 0b00 := by cases e <;> decide

@[simp] theorem statusCode_ok {α : Type} (v : α) : statusCode (.ok v) = 0b00 := rfl

@[simp] theorem statusCode_raise {α : Type} (e : Err) : statusCode (.raise e : OpResult α) = errCode e := rfl

theorem statusCode_eq_zero_iff {α : Type} (r : OpResult α) : statusCode r = 0b00 ↔ ∃ v, r = .ok v := by
  cases r with
  | ok v => simp
  | raise e => simpa using errCode_ne_zero e

/-- Settles O24: the table's rows and the ports by definition, OK's code by `statusCode_eq_zero_iff`. -/
theorem statusCodesAreTheTables : Obligations.StatusCodesAreTheTables :=
  ⟨⟨rfl, rfl, rfl⟩, statusCode_ok, statusCode_ok, statusCode_raise, statusCode_raise, statusCode_eq_zero_iff,
    statusCode_eq_zero_iff, fun _ => ⟨rfl, rfl⟩⟩

/-! ### The fields of a frame -/

theorem magx_eq_extractLsb' (f : Frame) : magx f = f.extractLsb' 16 16 :=
  BitVec.extractLsb'_append_extractLsb'_eq_extractLsb' rfl

theorem magx_toNat (f : Frame) : (magx f).toNat = f.toNat / 65536 := by
  rw [magx_eq_extractLsb', BitVec.extractLsb'_toNat, Nat.shiftRight_eq_div_pow]
  have hf : f.toNat < 2 ^ 32 := f.isLt
  omega

theorem frameOk_iff_bits (f : Frame) :
    frameOk f = true ↔ f.extractLsb' 0 8 = f.extractLsb' 24 8 ^^^ f.extractLsb' 16 8 ^^^ f.extractLsb' 8 8 :=
  (frameOk_iff f).trans eq_comm

/-! ### ENC's frames -/

theorem exec_encInstr (k : Kind) (s : State) : exec (encInstr k) s = .next (driveEnc (kindCode k) s) := by
  cases k <;> rfl

@[simp] theorem lutEntry_cmdTable (k : Kind) : lutEntry cmdTable k = cmdEntry (Config.cmdOpcode k) := by
  cases k <;> rfl

@[simp] theorem encFramePort_driveEnc_kindCode (k : Kind) (s : State) :
    encFramePort (driveEnc (kindCode k) s) = lutEntry s.lut k := by
  simp [encFramePort]

@[simp] theorem opcodeField_cmdEntry (op : Byte) : opcodeField (cmdEntry op) = op := by
  simp [opcodeField, cmdEntry]

/-- Settles O26: the frame ENC answers is the kind's entry, packed with its opcode in lane 0. -/
theorem frameFieldsAreTheirBits : Obligations.FrameFieldsAreTheirBits := by
  refine ⟨fun f => ⟨rfl, magx_eq_extractLsb' f, magx_toNat f, rfl, frameOk_iff_bits f⟩, fun s k hlut => ?_⟩
  have hopcode : opcodeField (encFramePort (driveEnc (kindCode k) s)) = Config.cmdOpcode k := by
    rw [encFramePort_driveEnc_kindCode, hlut, lutEntry_cmdTable, opcodeField_cmdEntry]
  exact ⟨_, exec_encInstr k s, hopcode⟩

end Sys2Proof.Machine

/-! The command encoder: the table's three frames, and each ENC operation as one lookup in it
(40_command_encoder.md). -/

namespace Sys2Proof.Machine

/-! ### The command frames -/

/-- The two middle lanes are zero, so the XOR formula gives the opcode again. -/
theorem cmdEntry_eq_pack (op : Byte) : cmdEntry op = pack op 0x00 0x00 op := by
  rw [cmdEntry, byteXor_zero, byteXor_zero]

@[simp] theorem calcChecksum_cmdEntry (op : Byte) : calcChecksum (cmdEntry op) = op := by
  rw [cmdEntry_eq_pack, calcChecksum_pack, byteXor_zero, byteXor_zero]

@[simp] theorem decOp_cmdEntry (op : Byte) : decOp (cmdEntry op) = .ok (op ++ 0x00#8) := by
  rw [decOp_of_ok _ (frameOk_cmdEntry op), cmdEntry, magx_pack]
  rfl

theorem cmdEntry_rv : cmdEntry (Config.cmdOpcode .rv) = 0x09000009 := by decide

theorem cmdEntry_fv : cmdEntry (Config.cmdOpcode .fv) = 0x01000001 := by decide

theorem cmdEntry_temp : cmdEntry (Config.cmdOpcode .temp) = 0x02000002 := by decide

theorem kindCode_ne_reserved (k : Kind) : kindCode k ≠ reservedCode := by cases k <;> decide

theorem lutEntry_of_lutIntact (k : Kind) {s : State} (hlut : s.lutIntact) :
    lutEntry s.lut k = cmdEntry (Config.cmdOpcode k) := by
  rw [hlut, lutEntry_cmdTable]

theorem lutEntry_reset (k : Kind) : lutEntry State.reset.lut k = cmdEntry (Config.cmdOpcode k) :=
  lutEntry_of_lutIntact k rfl

/-- Settles O6: the table at power-up holds `cmdEntry` of each kind's opcode, and the three entries are evaluated. -/
theorem commandTableHoldsTheThreeFrames : Obligations.CommandTableHoldsTheThreeFrames :=
  ⟨lutEntry_reset, ⟨rfl, (lutEntry_reset .rv).trans cmdEntry_rv, rfl⟩,
    ⟨rfl, (lutEntry_reset .fv).trans cmdEntry_fv, rfl⟩, ⟨rfl, (lutEntry_reset .temp).trans cmdEntry_temp, rfl⟩,
    kindCode_ne_reserved⟩

/-! ### The lookup -/

theorem exec_chk (f : Frame) (s : State) : exec (.chk f) s = .next (driveChk f s) := rfl

theorem exec_dec (f : Frame) (s : State) : exec (.dec f) s = .next (driveDec f s) := rfl

theorem exec_encReserved (s : State) : exec .encReserved s = .next (driveEnc reservedCode s) := rfl

/-- The whole next state: ENC's own ports and the step count, and no other field, are written. -/
theorem driveEnc_kindCode (k : Kind) (s : State) : driveEnc (kindCode k) s =
    { s with encKsel := kindCode k, encOut := .ok (lutEntry s.lut k), samples := s.samples + 1 } := by
  rw [driveEnc, encOp_kindCode]

theorem driveEnc_reservedCode (s : State) : driveEnc reservedCode s =
    { s with encKsel := reservedCode, encOut := .raise .kindError, samples := s.samples + 1 } := by
  rw [driveEnc, encOp_reserved]

@[simp] theorem encStatusPort_driveEnc_kindCode (k : Kind) (s : State) :
    encStatusPort (driveEnc (kindCode k) s) = 0b00 := by
  simp [encStatusPort]

/-- On an intact table the looked-up entry is the kind's own command frame. -/
theorem encFramePort_driveEnc_of_lutIntact (k : Kind) {s : State} (hlut : s.lutIntact) :
    encFramePort (driveEnc (kindCode k) s) = cmdEntry (Config.cmdOpcode k) := by
  rw [encFramePort_driveEnc_kindCode, lutEntry_of_lutIntact k hlut]

/-- Settles O5: the drive answers the table's entry, and an intact table's entry is a command frame, which is valid by
construction. -/
theorem encoderLooksUpTheKindsEntry : Obligations.EncoderLooksUpTheKindsEntry := by
  refine ⟨fun k s => ⟨driveEnc (kindCode k) s, exec_encInstr k s, driveEnc_kindCode k s,
    encFramePort_driveEnc_kindCode k s, encStatusPort_driveEnc_kindCode k s, fun hlut => ⟨_, exec_chk _ _, ?_⟩⟩,
    fun s => ⟨_, exec_encReserved s, encOp_reserved s.lut⟩⟩
  rw [driveChk_chkOk, encFramePort_driveEnc_of_lutIntact k hlut, frameOk_cmdEntry]

/-! ### The reserved code -/

theorem encStatusPort_of_raise {s : State} {e : Err} (h : s.encOut = .raise e) : encStatusPort s = errCode e := by
  rw [encStatusPort, h, statusCode_raise]

/-- No error has OK's code. -/
theorem mayTransmit_of_raise {s : State} {e : Err} (h : s.encOut = .raise e) : s.mayTransmit = false := by
  rw [State.mayTransmit, encStatusPort_of_raise h]
  exact beq_false_of_ne (errCode_ne_zero e)

/-- Settles O4: the outcome is KindError, so the status and the transmit duty are those of an error. -/
theorem encReservedRaisesKindErrorWithNoFrame : Obligations.EncReservedRaisesKindErrorWithNoFrame := by
  refine ⟨decodeOfEncodeIsTheOperation .encReserved, fun s => ?_⟩
  have hout : (driveEnc reservedCode s).encOut = .raise .kindError := encOp_reserved s.lut
  exact ⟨_, exec_encReserved s, driveEnc_reservedCode s, encStatusPort_of_raise hout, mayTransmit_of_raise hout,
    fun f hf => nomatch hout.symm.trans hf⟩

/-! ### The three kinds -/

theorem decMagPort_of_ok {s : State} {m : Mag} (h : s.decOut = .ok m) : decMagPort s = m := by
  rw [decMagPort, h]

/-- ENC of a kind from an intact table, then DEC of the kind's command frame `f`: the frame on ENC's port is `f`, and
DEC reads the opcode as its high byte. -/
theorem exec_encInstr_then_dec (k : Kind) {f : Frame} (hf : cmdEntry (Config.cmdOpcode k) = f) {s : State}
    (hlut : s.lutIntact) :
    ∃ t u, exec (encInstr k) s = .next t ∧
      t = { s with encKsel := kindCode k, encOut := .ok f, samples := s.samples + 1 } ∧
      encFramePort t = pack (Config.cmdOpcode k) 0x00 0x00 (Config.cmdOpcode k) ∧ encStatusPort t = 0b00 ∧
      exec (.dec f) t = .next u ∧ u.decOut = .ok (Config.cmdOpcode k ++ 0x00#8) ∧
      (decMagPort u).toNat = (Config.cmdOpcode k ++ 0x00#8).toNat := by
  subst hf
  have hstate := lutEntry_of_lutIntact k hlut ▸ driveEnc_kindCode k s
  have hport := (encFramePort_driveEnc_of_lutIntact k hlut).trans (cmdEntry_eq_pack _)
  have hdec := decOp_cmdEntry (Config.cmdOpcode k)
  exact ⟨_, _, exec_encInstr k s, hstate, hport, encStatusPort_driveEnc_kindCode k s, exec_dec _ _, hdec,
    congrArg BitVec.toNat (decMagPort_of_ok hdec)⟩

/-- Settles O1: the RawVelocity case of `exec_encInstr_then_dec`. -/
theorem encRvGivesRawVelocityFrame : Obligations.EncRvGivesRawVelocityFrame :=
  ⟨decodeOfEncodeIsTheOperation .encRv, cmdEntry_rv ▸ calcChecksum_cmdEntry _,
    fun _ => exec_encInstr_then_dec .rv cmdEntry_rv⟩

/-- Settles O2: the FilteredVelocity case of `exec_encInstr_then_dec`. -/
theorem encFvGivesFilteredVelocityFrame : Obligations.EncFvGivesFilteredVelocityFrame :=
  ⟨decodeOfEncodeIsTheOperation .encFv, cmdEntry_fv ▸ calcChecksum_cmdEntry _,
    fun _ => exec_encInstr_then_dec .fv cmdEntry_fv⟩

/-- Settles O3: the Temperature case of `exec_encInstr_then_dec`. -/
theorem encTempGivesTemperatureFrame : Obligations.EncTempGivesTemperatureFrame :=
  ⟨decodeOfEncodeIsTheOperation .encTemp, cmdEntry_temp ▸ calcChecksum_cmdEntry _,
    fun _ => exec_encInstr_then_dec .temp cmdEntry_temp⟩

end Sys2Proof.Machine

/-! The XOR checksum validator: the byte XOR, the checksum invariant, and which error patterns it catches
(41_checksum_validator.md). -/

namespace Sys2Proof.Machine

/-! ### The invariant of a valid frame -/

theorem frameOk_iff_laneXor (f : Frame) : frameOk f = true ↔ laneXor f = 0x00 := frameOk_iff_xor_zero f

theorem frameOk_eq_false_iff_laneXor (f : Frame) : frameOk f = false ↔ laneXor f ≠ 0x00 := by
  rw [← Bool.not_eq_true, frameOk_iff_laneXor]

theorem frameOk_eq_decide (f : Frame) : frameOk f = decide (calcChecksum f = lane f 3) :=
  Bool.eq_iff_iff.2 ((frameOk_iff f).trans decide_eq_true_iff.symm)

/-- Three leading bytes have one checksum byte. -/
theorem existsUnique_frameOk_pack (b0 b1 b2 : Byte) : ∃! b3 : Byte, frameOk (pack b0 b1 b2 b3) = true := by
  simp only [frameOk_pack, existsUnique_eq']

/-! ### The valid frames are the 24-bit values -/

/-- Lanes 0, 1 and 2: all of a frame but its checksum byte. -/
def leadingBits (f : Frame) : BitVec 24 := lane f 0 ++ lane f 1 ++ lane f 2

/-- The frame with these leading lanes and the checksum byte that makes it valid. -/
def completeFrame (v : BitVec 24) : Frame :=
  pack (v.extractLsb' 16 8) (v.extractLsb' 8 8) (v.extractLsb' 0 8)
    (byteXor (byteXor (v.extractLsb' 16 8) (v.extractLsb' 8 8)) (v.extractLsb' 0 8))

theorem frameOk_completeFrame (v : BitVec 24) : frameOk (completeFrame v) = true := (frameOk_pack ..).2 rfl

theorem leadingBits_completeFrame (v : BitVec 24) : leadingBits (completeFrame v) = v := by
  simp only [leadingBits, completeFrame, lane_pack_zero, lane_pack_one, lane_pack_two]
  have hhigh : v.extractLsb' 16 8 ++ v.extractLsb' 8 8 = v.extractLsb' 8 16 :=
    BitVec.extractLsb'_append_extractLsb'_eq_extractLsb' rfl
  rw [hhigh]
  exact (BitVec.extractLsb'_append_extractLsb'_eq_extractLsb' rfl).trans BitVec.extractLsb'_eq_self

theorem completeFrame_append (a b c : Byte) :
    completeFrame (a ++ b ++ c) = pack a b c (byteXor (byteXor a b) c) := by
  have ha : (a ++ b ++ c).extractLsb' 16 8 = a :=
    (BitVec.extractLsb'_append_eq_of_le (by decide)).trans BitVec.extractLsb'_append_eq_left
  have hb : (a ++ b ++ c).extractLsb' 8 8 = b :=
    (BitVec.extractLsb'_append_eq_of_le (by decide)).trans BitVec.extractLsb'_append_eq_right
  have hc : (a ++ b ++ c).extractLsb' 0 8 = c := BitVec.extractLsb'_append_eq_right
  rw [completeFrame, ha, hb, hc]

/-- A valid frame's last byte is the computed checksum, so its leading lanes determine it. -/
theorem completeFrame_leadingBits {f : Frame} (hf : frameOk f = true) : completeFrame (leadingBits f) = f := by
  have hlast : byteXor (byteXor (lane f 0) (lane f 1)) (lane f 2) = lane f 3 := (frameOk_iff f).1 hf
  rw [leadingBits, completeFrame_append, hlast, pack_lanes]

/-- There are as many valid frames as 24-bit values. -/
def validFrameEquiv : Subtype (fun f : Frame => frameOk f = true) ≃ BitVec 24 where
  toFun f := leadingBits f.val
  invFun v := ⟨completeFrame v, frameOk_completeFrame v⟩
  left_inv f := Subtype.ext (completeFrame_leadingBits f.property)
  right_inv := leadingBits_completeFrame

/-! ### CHK -/

@[simp] theorem chkCalcPort_driveChk (f : Frame) (s : State) : chkCalcPort (driveChk f s) = calcChecksum f := rfl

theorem chkOkPort_eq_one_iff (s : State) : chkOkPort s = 1 ↔ s.chkOk = true := by
  cases h : s.chkOk <;> simp [chkOkPort, h]

theorem chkOkPort_eq_zero_iff (s : State) : chkOkPort s = 0 ↔ s.chkOk = false := by
  cases h : s.chkOk <;> simp [chkOkPort, h]

/-- The whole next state, with both results written out. -/
theorem driveChk_eq (f : Frame) (s : State) : driveChk f s =
    { s with
      chkFrame := f, chkCalc := lane f 0 ^^^ lane f 1 ^^^ lane f 2,
      chkOk := decide (lane f 0 ^^^ lane f 1 ^^^ lane f 2 = lane f 3), samples := s.samples + 1 } := by
  rw [driveChk, frameOk_eq_decide]
  rfl

/-- Settles O9: `driveChk_eq`, and the two frames are evaluated. -/
theorem chkAppliesTheFullFormula : Obligations.ChkAppliesTheFullFormula := by
  refine ⟨fun f s => (exec_chk f s).trans (congrArg _ (driveChk_eq f s)),
    fun s => ⟨_, _, exec_chk _ s, ?_, ?_, exec_chk _ s, ?_⟩⟩
  · rw [driveChk_chkCalc]; decide
  · rw [driveChk_chkOk]; decide
  · rw [driveChk_chkOk]; decide

/-- Settles O8: the laws of `byteXor`, and its bits taken twice in the computed checksum. -/
theorem byteXorIsBitwise : Obligations.ByteXorIsBitwise := by
  refine ⟨fun a b i _ => byteXor_bit a b i, byteXor_assoc, byteXor_comm, fun a => ⟨byteXor_zero a, byteXor_self a⟩,
    fun f s => ⟨_, exec_chk f s, fun i _ => ?_⟩⟩
  rw [driveChk_chkCalc, calcChecksum, byteXor_bit, byteXor_bit]

/-- Settles O10: the ports by the computed checksum, the count of valid frames by `validFrameEquiv`. -/
theorem chkDecidesTheChecksumInvariant : Obligations.ChkDecidesTheChecksumInvariant := by
  refine ⟨fun f s => ⟨_, exec_chk f s, rfl, ?_, ?_, frameOk_iff_laneXor f⟩, by decide, by decide,
    existsUnique_frameOk_pack, ⟨validFrameEquiv⟩, fun s => ⟨_, exec_chk _ s, ?_, ?_⟩⟩
  · rw [chkOkPort_eq_one_iff, chkCalcPort_driveChk, driveChk_chkOk, frameOk_iff]
  · rw [chkOkPort_eq_zero_iff, chkCalcPort_driveChk, driveChk_chkOk, ← Bool.not_eq_true, frameOk_iff]
  · rw [driveChk_chkCalc]; decide
  · rw [driveChk_chkOk]; decide

theorem frameOk_eq_of_laneXor_eq {f g : Frame} (h : laneXor f = laneXor g) : frameOk f = frameOk g := by
  rw [Bool.eq_iff_iff, frameOk_iff_laneXor, frameOk_iff_laneXor, h]

/-- Settles O11. -/
theorem chkOkDependsOnTheLaneXorAlone : Obligations.ChkOkDependsOnTheLaneXorAlone :=
  fun f g s s' h => ⟨_, _, exec_chk f s, exec_chk g s', frameOk_eq_of_laneXor_eq h⟩

/-! ### Error patterns -/

theorem laneXor_xor (f m : Frame) : laneXor (f ^^^ m) = byteXor (laneXor f) (laneXor m) := by
  simp only [laneXor, byteXor, lane_xor]
  ac_rfl

/-- A valid frame's own lanes cancel, so what is left is the pattern's. -/
theorem laneXor_xor_of_frameOk {f : Frame} (hf : frameOk f = true) (m : Frame) : laneXor (f ^^^ m) = laneXor m := by
  rw [laneXor_xor, (frameOk_iff_laneXor f).1 hf, byteXor_comm, byteXor_zero]

/-- The other three lanes are neutral in the XOR. -/
theorem laneXor_of_one_lane {m : Frame} {l : Fin 4} (h : ∀ l', l' ≠ l → lane m l' = 0x00) :
    laneXor m = lane m l := by
  fin_cases l <;> simp [laneXor, byteXor, h]

theorem decide_countP_odd_cons {α : Type} (p : α → Bool) (a : α) (l : List α) :
    decide ((a :: l).countP p % 2 = 1) = (p a ^^ decide (l.countP p % 2 = 1)) := by
  rw [List.countP_cons]
  cases p a with
  | false => simp
  | true => rcases Nat.mod_two_eq_zero_or_one (l.countP p) with h | h <;> simp [Nat.succ_mod_two_eq_one_iff, h]

/-- A bit of the lanes' XOR says whether an odd number of lanes have it set. -/
theorem laneXor_bit (m : Frame) (b : Nat) : (laneXor m).getLsbD b = decide (flipsAt m b % 2 = 1) := by
  have hlanes : List.finRange 4 = [0, 1, 2, 3] := rfl
  simp only [laneXor, byteXor_bit, flipsAt, hlanes, decide_countP_odd_cons]
  simp

theorem laneXor_eq_zero_iff_flipsAt_even (m : Frame) : laneXor m = 0x00 ↔ ∀ b < 8, flipsAt m b % 2 ≠ 1 := by
  constructor
  · intro h b _
    simpa [h] using laneXor_bit m b
  · intro h
    refine BitVec.eq_of_getLsbD_eq fun b hb => ?_
    simp [laneXor_bit, h b hb]

theorem flipsAt_le_four (m : Frame) (b : Nat) : flipsAt m b ≤ 4 := List.countP_le_length

theorem flipsAt_even_iff (m : Frame) (b : Nat) :
    flipsAt m b % 2 ≠ 1 ↔ flipsAt m b = 0 ∨ flipsAt m b = 2 ∨ flipsAt m b = 4 := by
  have hle := flipsAt_le_four m b
  omega

/-- Settles O12: CHK of the changed frame decides whether the pattern's lanes XOR to zero, which they do exactly when
each bit is flipped in an even number of them. -/
theorem chkCatchesExactlyTheOddFlips : Obligations.ChkCatchesExactlyTheOddFlips := by
  refine ⟨fun f m s hf => ?_, fun s => ⟨_, exec_dec _ s, ?_⟩⟩
  · have hbad : (driveChk (f ^^^ m) s).chkOk = false ↔ laneXor m ≠ 0x00 := by
      rw [driveChk_chkOk, frameOk_eq_false_iff_laneXor, laneXor_xor_of_frameOk hf]
    refine ⟨_, exec_chk _ s, hbad, fun ⟨l, hl, hothers⟩ => ?_, fun ⟨b, hb, hodd⟩ => ?_, ?_⟩
    · exact hbad.2 (laneXor_of_one_lane hothers ▸ hl)
    · exact hbad.2 fun hzero => (laneXor_eq_zero_iff_flipsAt_even m).1 hzero b hb hodd
    · rw [← Bool.not_eq_false, hbad, not_not, laneXor_eq_zero_iff_flipsAt_even]
      simp only [flipsAt_even_iff]
  · rw [driveDec_decOut]; decide

end Sys2Proof.Machine

/-! Runs over the caller's drives, and the frame decoder: the magnitude a valid frame carries, and the checksum error
with no magnitude that any other frame gives (42_frame_decoder.md). -/

namespace Sys2Proof.Machine

/-! ### Runs of drivable queues -/

/-- Settles O35: `runSteps_of_queueOk` gives a run of any length, and a run's last state is unique. -/
theorem drivableQueuesNeverStop : Obligations.DrivableQueuesNeverStop := by
  intro s hq
  refine ⟨fun n => ?_, fun n t hr => ?_⟩
  · obtain ⟨t, hr, -⟩ := runSteps_of_queueOk n hq
    exact ⟨t, hr⟩
  · obtain ⟨u, hu, hpending⟩ := runSteps_of_queueOk n hq
    cases hr.symm.trans hu
    exact hpending

/-! ### The magnitude -/

/-- Two bytes put together are the high one moved up by a byte, with the low one in the room made. -/
theorem byte_append_eq_shift_or (a b : Byte) : a ++ b = (a.zeroExtend 16 <<< 8) ||| b.zeroExtend 16 := by
  rw [BitVec.append_def, BitVec.shiftLeftZeroExtend_eq, BitVec.setWidth'_eq]

theorem byte_append_zero (a : Byte) : a ++ 0x00#8 = a.zeroExtend 16 <<< 8 := by
  rw [byte_append_eq_shift_or]
  simp

theorem byte_append_toNat (a b : Byte) : (a ++ b).toNat = 256 * a.toNat + b.toNat := by
  rw [BitVec.toNat_append, ← Nat.shiftLeft_add_eq_or_of_lt b.isLt, Nat.shiftLeft_eq, Nat.mul_comm]

/-- Settles O14: MAGX is its two bytes put together, so the packed frames' magnitudes do not hold the other two. -/
theorem magnitudeIsBigEndianUnsigned : Obligations.MagnitudeIsBigEndianUnsigned := by
  refine ⟨fun f => ⟨rfl, byte_append_eq_shift_or _ _, magx_eq_extractLsb' f, byte_append_toNat _ _,
    Nat.le_of_lt_succ (magx f).isLt⟩, fun a b c d c' d' => ?_, fun c d => ?_, by decide⟩
  · rw [magx_pack, magx_pack]
  · simp only [magx_pack, byte_append_toNat]
    decide

/-! ### DEC's outcome -/

theorem decOp_pack_of_eq {b0 b1 b2 b3 : Byte} (h : byteXor (byteXor b0 b1) b2 = b3) :
    decOp (pack b0 b1 b2 b3) = .ok (b0 ++ b1) := by
  rw [decOp_of_ok _ ((frameOk_pack ..).2 h), magx_pack]

theorem decOp_pack_of_ne {b0 b1 b2 b3 : Byte} (h : byteXor (byteXor b0 b1) b2 ≠ b3) :
    decOp (pack b0 b1 b2 b3) = .raise .checksumError :=
  decOp_of_not_ok _ (Bool.eq_false_iff.2 fun hok => h ((frameOk_pack ..).1 hok))

/-- DEC's status on a frame is OK exactly when CHK finds the frame valid. -/
theorem statusCode_decOp_eq_zero_iff (f : Frame) : statusCode (decOp f) = 0b00 ↔ frameOk f = true := by
  rcases decOp_cases f with ⟨hok, hdec⟩ | ⟨hbad, hdec⟩
  · simp [hok, hdec]
  · simp [hbad, hdec, errCode]

/-- The whole next state on a valid frame: DEC's own ports and the step count, and no other field, are written. -/
theorem driveDec_of_ok {f : Frame} (hf : frameOk f = true) (s : State) : driveDec f s =
    { s with decFrame := f, decOut := .ok (magx f), samples := s.samples + 1 } := by
  rw [driveDec, decOp_of_ok f hf]

theorem driveDec_of_not_ok {f : Frame} (hf : frameOk f = false) (s : State) : driveDec f s =
    { s with decFrame := f, decOut := .raise .checksumError, samples := s.samples + 1 } := by
  rw [driveDec, decOp_of_not_ok f hf]

theorem decStatusPort_of_raise {s : State} {e : Err} (h : s.decOut = .raise e) : decStatusPort s = errCode e := by
  rw [decStatusPort, h, statusCode_raise]

theorem decStatusPort_of_ok {s : State} {m : Mag} (h : s.decOut = .ok m) : decStatusPort s = 0b00 := by
  rw [decStatusPort, h, statusCode_ok]

/-- Settles O13: the two outcomes of `decOp`, chosen by the same comparison as CHK's `chk_ok`. -/
theorem decChecksThenExtracts : Obligations.DecChecksThenExtracts := by
  refine ⟨fun f s => ⟨_, _, exec_dec f s, exec_chk f s, fun hsum => ?_, fun hsum => ?_, ?_⟩,
    fun s => ⟨_, exec_dec _ s, ?_⟩⟩
  · have hf : frameOk f = true := (frameOk_iff f).2 hsum
    have hout : (driveDec f s).decOut = .ok (magx f) := decOp_of_ok f hf
    exact ⟨driveDec_of_ok hf s, decStatusPort_of_ok hout, decMagPort_of_ok hout⟩
  · have hf : frameOk f = false := Bool.eq_false_iff.2 fun hok => hsum ((frameOk_iff f).1 hok)
    have hout : (driveDec f s).decOut = .raise .checksumError := decOp_of_not_ok f hf
    exact ⟨driveDec_of_not_ok hf s, decStatusPort_of_raise hout⟩
  · rw [chkOkPort_eq_one_iff, driveChk_chkOk]
    exact statusCode_decOp_eq_zero_iff f
  · rw [driveDec_decOut, decOp_pack_of_ne (by decide)]

/-- Settles O17: DEC reads the frame alone. -/
theorem decOutcomeIgnoresTheKind : Obligations.DecOutcomeIgnoresTheKind :=
  fun f k k' s s' => ⟨_, _, _, _, exec_encInstr k s, exec_encInstr k' s', exec_dec f _, exec_dec f _,
    (driveDec_decOut f _).trans (driveDec_decOut f _).symm⟩

/-- Settles O15: with the other bytes kept, the XOR fits `b3` for one reserved byte only, and MAGX does not read it. -/
theorem reservedByteEntersTheChecksumOnly : Obligations.ReservedByteEntersTheChecksumOnly := by
  refine ⟨fun b0 b1 b2 b3 r s hf => ?_, fun s => ⟨_, exec_dec _ s, ?_⟩⟩
  · have hsum : byteXor (byteXor b0 b1) b2 = b3 := (frameOk_pack ..).1 hf
    have hchanged (hr : r ≠ b2) : byteXor (byteXor b0 b1) r ≠ b3 := fun hsum' =>
      hr ((BitVec.xor_right_inj (byteXor b0 b1)).1 (hsum'.trans hsum.symm))
    have hrecomputed : decOp (pack b0 b1 r (byteXor (byteXor b0 b1) r)) = .ok (b0 ++ b1) := decOp_pack_of_eq rfl
    exact ⟨_, _, _, exec_dec _ s, exec_dec _ s, fun hr => decOp_pack_of_ne (hchanged hr), exec_dec _ s, hrecomputed,
      hrecomputed.trans (decOp_pack_of_eq hsum).symm⟩
  · rw [driveDec_decOut, decOp_pack_of_eq (by decide)]
    decide

/-! ### Round trips through ENC -/

/-- On an intact table DEC of ENC's frame reads the opcode as the high byte over a zero low byte. -/
theorem exec_encInstr_then_dec_own_frame (k : Kind) {f : Frame} (hf : cmdEntry (Config.cmdOpcode k) = f) {s : State}
    (hlut : s.lutIntact) :
    ∃ t u, exec (encInstr k) s = .next t ∧ exec (.dec f) t = .next u ∧ encFramePort t = f ∧
      u.decOut = .ok (Config.cmdOpcode k ++ 0x00#8) := by
  subst hf
  exact ⟨_, _, exec_encInstr k s, exec_dec _ _, encFramePort_driveEnc_of_lutIntact k hlut, decOp_cmdEntry _⟩

/-- Settles O18: `exec_encInstr_then_dec_own_frame`, for any kind and for each of the three frames. -/
theorem decOfEncGivesOpcodeShifted : Obligations.DecOfEncGivesOpcodeShifted := by
  refine ⟨fun k s hlut => ?_, fun s hlut => ?_⟩
  · obtain ⟨t, u, ht, hu, hport, hout⟩ := exec_encInstr_then_dec_own_frame k rfl hlut
    exact ⟨t, u, ht, hport ▸ hu, decStatusPort_of_ok hout, hout, (decMagPort_of_ok hout).trans (byte_append_zero _)⟩
  · obtain ⟨a, a', ha, ha', hrv, hrv'⟩ := exec_encInstr_then_dec_own_frame .rv cmdEntry_rv hlut
    obtain ⟨b, b', hb, hb', hfv, hfv'⟩ := exec_encInstr_then_dec_own_frame .fv cmdEntry_fv hlut
    obtain ⟨c, c', hc, hc', htemp, htemp'⟩ := exec_encInstr_then_dec_own_frame .temp cmdEntry_temp hlut
    exact ⟨a, b, c, a', b', c', ha, ha', hrv, hrv', hb, hb', hfv, hfv', hc, hc', htemp, htemp'⟩

/-! ### Values and statuses -/

/-- In a settled state DEC's status is OK exactly when the frame on its port is valid. -/
theorem mayReadMag_eq_frameOk {s : State} (h : s.decOut = decOp s.decFrame) :
    s.mayReadMag = frameOk s.decFrame := by
  rw [Bool.eq_iff_iff, State.mayReadMag, beq_iff_eq, decStatusPort, h, statusCode_decOp_eq_zero_iff]

theorem ne_ok_of_raise {α : Type} {r : OpResult α} {e : Err} (h : r = .raise e) (v : α) : r ≠ .ok v := by
  subst h
  nofun

theorem mayTransmit_of_ok {s : State} {f : Frame} (h : s.encOut = .ok f) : s.mayTransmit = true := by
  rw [State.mayTransmit, encStatusPort, h, statusCode_ok]
  rfl

theorem encFramePort_of_ok {s : State} {f : Frame} (h : s.encOut = .ok f) : encFramePort s = f := by
  rw [encFramePort, h]

/-- Under the invariant ENC's outcome is the command frame of the kind selected, or KindError on the reserved code. -/
theorem encOut_cases_of_inv {s : State} (h : s.Inv) :
    (∃ k, s.encKsel = kindCode k ∧ s.encOut = .ok (cmdEntry (Config.cmdOpcode k))) ∨
      (s.encKsel = reservedCode ∧ s.encOut = .raise .kindError) := by
  obtain ⟨hlut, henc, -⟩ := h
  rcases encOp_cases s.lut s.encKsel with ⟨k, hk, hok⟩ | ⟨hk, herr⟩
  · exact .inl ⟨k, hk, by rw [henc, hok, lutEntry_of_lutIntact k hlut]⟩
  · exact .inr ⟨hk, henc.trans herr⟩

/-- Settles O16: under the invariant each outcome is its unit's function of the input on the port, and only a value has
OK's code. -/
theorem errorOutcomesCarryNoNumber : Obligations.ErrorOutcomesCarryNoNumber := by
  intro s hinv
  have ⟨_, _, _, _, hdec⟩ := hinv
  rw [mayReadMag_eq_frameOk hdec]
  refine ⟨fun hok => ?_, fun hbad => ⟨hbad, ?_⟩, ?_⟩
  · have hout := hdec.trans (decOp_of_ok _ hok)
    exact ⟨hok, hout, decMagPort_of_ok hout⟩
  · exact ne_ok_of_raise (hdec.trans (decOp_of_not_ok _ hbad))
  · rcases encOut_cases_of_inv hinv with ⟨k, hk, hout⟩ | ⟨hk, hout⟩
    · have hport := encFramePort_of_ok hout
      simp only [mayTransmit_of_ok hout, true_imp_iff, reduceCtorEq, false_imp_iff, and_true]
      exact ⟨k, hk, hport, hport ▸ frameOk_cmdEntry _⟩
    · simp only [mayTransmit_of_raise hout, reduceCtorEq, true_imp_iff, false_imp_iff, true_and]
      exact ⟨hk, ne_ok_of_raise hout⟩

end Sys2Proof.Machine

/-! Errors (60_exceptions.md): an operation that ends in one leaves no trace on the next, and each status port reports
its own unit's error alone. -/

namespace Sys2Proof.Machine

/-- Settles O21: the own unit's view depends on the table alone, which the earlier operation leaves as it was. -/
theorem earlierOperationsLeaveNoTrace : Obligations.EarlierOperationsLeaveNoTrace := by
  intro i j s
  obtain ⟨a, ha⟩ := exec_completes i s
  obtain ⟨t, ht⟩ := exec_completes j a
  obtain ⟨t', ht'⟩ := exec_completes j s
  have hlut : a.lut = s.lut := (exec_keeps_lut_and_pending ha).1
  exact ⟨a, t, t', ha, ht, ht', exec_own_view_eq_of_lut_eq hlut ht ht'⟩

/-! ### Settled outputs, whatever the table holds -/

theorem exec_keeps_settled {i : Instr} {s t : State} (h : s.settled) (he : exec i s = .next t) : t.settled := by
  obtain ⟨henc, hcalc, hok, hdec⟩ := h
  rcases exec_cases i s with ⟨k, -, hd⟩ | ⟨f, -, hd⟩ | ⟨f, -, hd⟩
  · cases he.symm.trans hd; exact ⟨rfl, hcalc, hok, hdec⟩
  · cases he.symm.trans hd; exact ⟨henc, rfl, rfl, hdec⟩
  · cases he.symm.trans hd; exact ⟨henc, hcalc, hok, rfl⟩

theorem step_keeps_settled {s t : State} (h : s.settled) (hs : step s = .next t) : t.settled := by
  rcases step_next_cases hs with ⟨-, rfl⟩ | ⟨_, rest, _, -, -, he⟩
  · exact h
  · have hrest : State.settled { s with pending := rest } := h
    exact exec_keeps_settled hrest he

/-! ### Each unit's own error -/

theorem statusCode_encOp (t : CmdTable) (c : Ksel) :
    statusCode (encOp t c) = if c = reservedCode then 0b11 else 0b00 := by
  rcases encOp_cases t c with ⟨k, rfl, hok⟩ | ⟨rfl, herr⟩
  · rw [hok, statusCode_ok, if_neg (kindCode_ne_reserved k)]
  · rw [herr, if_pos rfl]
    rfl

theorem statusCode_decOp (f : Frame) :
    statusCode (decOp f) = if calcChecksum f = lane f 3 then 0b00 else 0b01 := by
  simp only [← frameOk_iff]
  rcases decOp_cases f with ⟨hok, hdec⟩ | ⟨hbad, hdec⟩
  · rw [hdec, statusCode_ok, if_pos hok]
  · rw [hdec, if_neg (Bool.eq_false_iff.1 hbad)]
    rfl

/-- ENC's status under settled outputs: its codes, and when each stands. -/
theorem encStatusPort_own {s : State} (h : s.encOut = encOp s.lut s.encKsel) :
    (encStatusPort s = 0b00 ∨ encStatusPort s = 0b11) ∧ (encStatusPort s = 0b11 ↔ s.encKsel = reservedCode) := by
  rw [encStatusPort, h, statusCode_encOp]
  split <;> simp [*]

/-- DEC's status under settled outputs: its codes, and when each stands. -/
theorem decStatusPort_own {s : State} (h : s.decOut = decOp s.decFrame) :
    (decStatusPort s = 0b00 ∨ decStatusPort s = 0b01) ∧
      (decStatusPort s = 0b01 ↔ calcChecksum s.decFrame ≠ lane s.decFrame 3) := by
  rw [decStatusPort, h, statusCode_decOp]
  split <;> simp [*]

/-- Settles O23: a step keeps the outputs settled, and neither unit's codes hold FRAME_LENGTH_ERROR's. -/
theorem statusesAreTheUnitsOwn : Obligations.StatusesAreTheUnitsOwn := by
  intro s t hs hstep
  obtain ⟨henc, -, -, hdec⟩ := step_keeps_settled hs hstep
  obtain ⟨henc_codes, henc_iff⟩ := encStatusPort_own henc
  obtain ⟨hdec_codes, hdec_iff⟩ := decStatusPort_own hdec
  refine ⟨henc_codes, henc_iff, hdec_codes, hdec_iff, ?_, ?_⟩
  · rcases henc_codes with h | h <;> rw [h] <;> decide
  · rcases hdec_codes with h | h <;> rw [h] <;> decide

end Sys2Proof.Machine

/-! Power-up: the table holds its contents and each output follows its own unit's input (70_reset_and_hazards.md R75,
R76; 10_state.md R15). The inputs of `State.reset` are the model's choice (log 5). -/

namespace Sys2Proof.Machine

theorem reset_lutIntact : State.reset.lutIntact := rfl

/-- `State.reset` names, at each output, its unit's function of the input it sets, so each conjunct is definitional. -/
theorem reset_settled : State.reset.settled := ⟨rfl, rfl, rfl, rfl⟩

/-- Settles O33, the base of the invariant that `stepKeepsTheInvariant` carries along every step. -/
theorem resetMeetsTheInvariant : Obligations.ResetMeetsTheInvariant := ⟨reset_lutIntact, reset_settled⟩

end Sys2Proof.Machine
